-- ==== Sys2Proof/Word.lean ====
section
/-! DEFINITION. The word types of the AES-128 CORE (spec/00_scope.md R11 to R14, spec/30_encoding.md R75). -/

namespace Sys2Proof

/-- A byte, and an element of GF(2^8): bit `i` is the coefficient of `x^i` (40_galois_field.md R95). -/
abbrev Byte := BitVec 8

/-- A block: 16 bytes seen as one 128-bit word, byte `k` in bits `8k+7 .. 8k` (00_scope.md R12). -/
abbrev Block := BitVec 128

/-- A 32-bit schedule word (00_scope.md R14) or 32-bit lane (42_key_schedule_assisted.md R121). -/
abbrev Word32 := BitVec 32

/-- A command word `CMD` (30_encoding.md R75). -/
abbrev CmdWord := BitVec 32

/-- A 64-bit configuration register or host address (10_state.md R31, 20_memory.md R50). -/
abbrev Word64 := BitVec 64

end Sys2Proof
end

