-- ==== Sys2Proof/Syntax.lean ====
section
/-! DEFINITION. The commands of the AES-128 CORE, one constructor for each row of spec/opcode_table.json
(spec/30_encoding.md R79). The 128-bit operand `WDATA` is not part of the command word (R78): the commands
that take it read `State.wdata`. -/

namespace Sys2Proof

/-- The configuration registers of 10_state.md R31. -/
inductive CfgReg where
  | nBlocks | threads | inBase | outBase
  | clb | lanes | devCeil | devInfo
  | gpuOffset | gpuTile | gpuTiles
deriving DecidableEq, Repr

/-- The commands (30_encoding.md R79). `r` is a round-key index, `a` and `b` field elements, `idx` a block
index, `c` counter present, `v` the path select of `PARENC` (R77). -/
inductive Instr where
  | nop
  | rdstat
  | wrcfg (sel : CfgReg)
  | rdcfg (sel : CfgReg)
  | sreset
  | gfmul (a b : Byte)
  | gfmul2 (a : Byte)
  | gfmul3 (a : Byte)
  | ldkey
  | kseed
  | kstept (r : Nat)
  | kexpt
  | kassist (r : Nat)
  | kexpv
  | kinv
  | rdrk (r : Nat)
  | rdik (r : Nat)
  | lds
  | rds
  | ldctr
  | ldblk (idx : BitVec 24)
  | stblk (idx : BitVec 24)
  | subb
  | shrow
  | mixcol
  | addrk (r : Nat)
  | isubb
  | ishrow
  | imixcol
  | xctr
  | venc (r : Nat)
  | venclast (r : Nat)
  | vdec (r : Nat)
  | vdeclast (r : Nat)
  | enct (c : Bool)
  | encv (c : Bool)
  | decv (c : Bool)
  | parenc (c v : Bool)
  | gpudisp (c : Bool)
deriving DecidableEq, Repr

/-- Why a command word is illegal (30_encoding.md R83); the decoder rejects a word by one of these names.
Every one of them raises the same fault, `E_ILLEGAL_CMD`. -/
inductive Illegal where
  /-- The opcode is unassigned (R84), 0x53 among them (R87). -/
  | unassignedOpcode
  /-- A bit that the format says must be zero is one (R76). -/
  | reservedBits
  /-- `r` is outside the command's range (R85). -/
  | roundKeyRange
  /-- `v = 1` in a command other than `PARENC` (R83). -/
  | pathBit
  /-- `sel` is no register, or a read-only one in `WRCFG` (R86). -/
  | selector
deriving DecidableEq, Repr

end Sys2Proof
end

