-- ==== Sys2Proof/WellFormed.lean ====
section
/-! DEFINITION. Which commands are well formed: the operand ranges of spec/30_encoding.md R85 and R86. -/

namespace Sys2Proof

/-- `WRCFG` may write the four read-write registers only (10_state.md R31, 30_encoding.md R86). -/
def CfgReg.writable : CfgReg → Bool
  | .nBlocks | .threads | .inBase | .outBase => true
  | .clb | .lanes | .devCeil | .devInfo | .gpuOffset | .gpuTile | .gpuTiles => false

/-- A round-key index of the commands that read or use a round key: 0 .. 10 (R85). -/
def roundIndexOk (r : Nat) : Bool := r ≤ 10

/-- A round-key index of the step commands `KSTEPT` and `KASSIST`: 1 .. 10 (R85). -/
def stepIndexOk (r : Nat) : Bool := 1 ≤ r && r ≤ 10

/-- A command with every operand in its legal range (30_encoding.md R79, R85, R86). -/
def Instr.wellFormed : Instr → Bool
  | .wrcfg sel => sel.writable
  | .kstept r | .kassist r => stepIndexOk r
  | .rdrk r | .rdik r | .addrk r | .venc r | .venclast r | .vdec r | .vdeclast r => roundIndexOk r
  | .nop | .rdstat | .rdcfg _ | .sreset | .gfmul _ _ | .gfmul2 _ | .gfmul3 _ | .ldkey | .kseed | .kexpt
  | .kexpv | .kinv | .lds | .rds | .ldctr | .ldblk _ | .stblk _ | .subb | .shrow | .mixcol | .isubb
  | .ishrow | .imixcol | .xctr | .enct _ | .encv _ | .decv _ | .parenc _ _ | .gpudisp _ => true

end Sys2Proof
end

