-- ==== Sys2Proof/Decode.lean ====
section
/-! DEFINITION. The decoder, total on all 2^32 words (spec/30_encoding.md R88), and the encoder, both from
the formats of R76 and the opcode map of R79. -/

namespace Sys2Proof

/-! The formats of R76, on the operand field `CMD[23:0]`. -/

/-- Format Z: bits 23:0 must be zero. -/
def decodeZ (i : Instr) (x : BitVec 24) : Except Illegal Instr :=
  if x = 0#24 then .ok i else .error .reservedBits

/-- Format R: bits 23:4 must be zero, `r = CMD[3:0]` in the command's legal range. -/
def decodeR (legal : Nat → Bool) (mk : Nat → Instr) (x : BitVec 24) : Except Illegal Instr :=
  if x.extractLsb' 4 20 ≠ 0#20 then .error .reservedBits
  else if legal (x.extractLsb' 0 4).toNat then .ok (mk (x.extractLsb' 0 4).toNat)
  else .error .roundKeyRange

/-- Format G2: bits 23:16 must be zero, `a = CMD[15:8]`, `b = CMD[7:0]`. -/
def decodeG2 (mk : Byte → Byte → Instr) (x : BitVec 24) : Except Illegal Instr :=
  if x.extractLsb' 16 8 ≠ 0#8 then .error .reservedBits
  else .ok (mk (x.extractLsb' 8 8) (x.extractLsb' 0 8))

/-- Format G1: bits 23:8 must be zero, `a = CMD[7:0]`. -/
def decodeG1 (mk : Byte → Instr) (x : BitVec 24) : Except Illegal Instr :=
  if x.extractLsb' 8 16 ≠ 0#16 then .error .reservedBits
  else .ok (mk (x.extractLsb' 0 8))

/-- Format M where `v` must be zero: bits 23:1 must be zero, `c = CMD[0]`. -/
def decodeM (mk : Bool → Instr) (x : BitVec 24) : Except Illegal Instr :=
  if x.extractLsb' 2 22 ≠ 0#22 then .error .reservedBits
  else if x.getLsbD 1 then .error .pathBit
  else .ok (mk (x.getLsbD 0))

/-- Format M of `PARENC`: bits 23:2 must be zero, `v = CMD[1]`, `c = CMD[0]`. -/
def decodeMV (mk : Bool → Bool → Instr) (x : BitVec 24) : Except Illegal Instr :=
  if x.extractLsb' 2 22 ≠ 0#22 then .error .reservedBits
  else .ok (mk (x.getLsbD 0) (x.getLsbD 1))

/-- The number `sel` of a configuration register (10_state.md R31). -/
def CfgReg.sel : CfgReg → Byte
  | .nBlocks => 0x00#8
  | .threads => 0x01#8
  | .inBase => 0x02#8
  | .outBase => 0x03#8
  | .clb => 0x10#8
  | .lanes => 0x11#8
  | .devCeil => 0x12#8
  | .devInfo => 0x13#8
  | .gpuOffset => 0x20#8
  | .gpuTile => 0x21#8
  | .gpuTiles => 0x22#8

/-- The configuration register with number `sel`, if there is one (10_state.md R31). -/
def cfgRegOf (sel : Byte) : Option CfgReg :=
  match sel with
  | 0x00#8 => some .nBlocks
  | 0x01#8 => some .threads
  | 0x02#8 => some .inBase
  | 0x03#8 => some .outBase
  | 0x10#8 => some .clb
  | 0x11#8 => some .lanes
  | 0x12#8 => some .devCeil
  | 0x13#8 => some .devInfo
  | 0x20#8 => some .gpuOffset
  | 0x21#8 => some .gpuTile
  | 0x22#8 => some .gpuTiles
  | _ => none

/-- Format S: bits 23:8 must be zero, `sel = CMD[7:0]` a register the command may name (R86). -/
def decodeS (legal : CfgReg → Bool) (mk : CfgReg → Instr) (x : BitVec 24) : Except Illegal Instr :=
  if x.extractLsb' 8 16 ≠ 0#16 then .error .reservedBits
  else
    match cfgRegOf (x.extractLsb' 0 8) with
    | some q => if legal q then .ok (mk q) else .error .selector
    | none => .error .selector

/-- The opcode map of R79: the opcode picks the command and its format. Opcode 0x53, held for `DECT`, is
unassigned like every other opcode not listed (R84, R87). -/
def decodeOp (op : Byte) (x : BitVec 24) : Except Illegal Instr :=
  match op with
  | 0x00#8 => decodeZ .nop x
  | 0x01#8 => decodeZ .rdstat x
  | 0x02#8 => decodeS CfgReg.writable .wrcfg x
  | 0x03#8 => decodeS (fun _ => true) .rdcfg x
  | 0x04#8 => decodeZ .sreset x
  | 0x10#8 => decodeG2 .gfmul x
  | 0x11#8 => decodeG1 .gfmul2 x
  | 0x12#8 => decodeG1 .gfmul3 x
  | 0x20#8 => decodeZ .ldkey x
  | 0x21#8 => decodeZ .kseed x
  | 0x22#8 => decodeR stepIndexOk .kstept x
  | 0x23#8 => decodeZ .kexpt x
  | 0x24#8 => decodeR stepIndexOk .kassist x
  | 0x25#8 => decodeZ .kexpv x
  | 0x26#8 => decodeZ .kinv x
  | 0x27#8 => decodeR roundIndexOk .rdrk x
  | 0x28#8 => decodeR roundIndexOk .rdik x
  | 0x30#8 => decodeZ .lds x
  | 0x31#8 => decodeZ .rds x
  | 0x32#8 => decodeZ .ldctr x
  | 0x33#8 => .ok (.ldblk x)
  | 0x34#8 => .ok (.stblk x)
  | 0x40#8 => decodeZ .subb x
  | 0x41#8 => decodeZ .shrow x
  | 0x42#8 => decodeZ .mixcol x
  | 0x43#8 => decodeR roundIndexOk .addrk x
  | 0x44#8 => decodeZ .isubb x
  | 0x45#8 => decodeZ .ishrow x
  | 0x46#8 => decodeZ .imixcol x
  | 0x47#8 => decodeZ .xctr x
  | 0x48#8 => decodeR roundIndexOk .venc x
  | 0x49#8 => decodeR roundIndexOk .venclast x
  | 0x4A#8 => decodeR roundIndexOk .vdec x
  | 0x4B#8 => decodeR roundIndexOk .vdeclast x
  | 0x50#8 => decodeM .enct x
  | 0x51#8 => decodeM .encv x
  | 0x52#8 => decodeM .decv x
  | 0x60#8 => decodeMV .parenc x
  | 0x70#8 => decodeM .gpudisp x
  | _ => .error .unassignedOpcode

/-- The decoder: the opcode is `CMD[31:24]`, the operand field `CMD[23:0]` (R76, R88). -/
def decode (w : CmdWord) : Except Illegal Instr :=
  decodeOp (w.extractLsb' 24 8) (w.extractLsb' 0 24)

/-- The instruction the decoder reads from a table word: one 32-bit command word, numbered as the table
numbers it, bits above `nbits` zero. -/
def decodeTableWord (nbits w : Nat) : Option Instr :=
  match decode (BitVec.ofNat 32 (w % 2 ^ nbits)) with
  | .ok i => some i
  | .error _ => none

/-! The encoder. -/

/-- The opcode of a command (R79). -/
def Instr.opcode : Instr → Byte
  | .nop => 0x00#8
  | .rdstat => 0x01#8
  | .wrcfg _ => 0x02#8
  | .rdcfg _ => 0x03#8
  | .sreset => 0x04#8
  | .gfmul _ _ => 0x10#8
  | .gfmul2 _ => 0x11#8
  | .gfmul3 _ => 0x12#8
  | .ldkey => 0x20#8
  | .kseed => 0x21#8
  | .kstept _ => 0x22#8
  | .kexpt => 0x23#8
  | .kassist _ => 0x24#8
  | .kexpv => 0x25#8
  | .kinv => 0x26#8
  | .rdrk _ => 0x27#8
  | .rdik _ => 0x28#8
  | .lds => 0x30#8
  | .rds => 0x31#8
  | .ldctr => 0x32#8
  | .ldblk _ => 0x33#8
  | .stblk _ => 0x34#8
  | .subb => 0x40#8
  | .shrow => 0x41#8
  | .mixcol => 0x42#8
  | .addrk _ => 0x43#8
  | .isubb => 0x44#8
  | .ishrow => 0x45#8
  | .imixcol => 0x46#8
  | .xctr => 0x47#8
  | .venc _ => 0x48#8
  | .venclast _ => 0x49#8
  | .vdec _ => 0x4A#8
  | .vdeclast _ => 0x4B#8
  | .enct _ => 0x50#8
  | .encv _ => 0x51#8
  | .decv _ => 0x52#8
  | .parenc _ _ => 0x60#8
  | .gpudisp _ => 0x70#8

/-- The operand field `CMD[23:0]` of a command, by its format (R76). -/
def Instr.operandField : Instr → BitVec 24
  | .wrcfg sel | .rdcfg sel => 0#16 ++ sel.sel
  | .gfmul a b => 0#8 ++ a ++ b
  | .gfmul2 a | .gfmul3 a => 0#16 ++ a
  | .kstept r | .kassist r | .rdrk r | .rdik r | .addrk r | .venc r | .venclast r | .vdec r
  | .vdeclast r => 0#20 ++ BitVec.ofNat 4 r
  | .ldblk idx | .stblk idx => idx
  | .enct c | .encv c | .decv c | .gpudisp c => 0#23 ++ BitVec.ofBool c
  | .parenc c v => 0#22 ++ BitVec.ofBool v ++ BitVec.ofBool c
  | .nop | .rdstat | .sreset | .ldkey | .kseed | .kexpt | .kexpv | .kinv | .lds | .rds | .ldctr | .subb
  | .shrow | .mixcol | .isubb | .ishrow | .imixcol | .xctr => 0#24

/-- The command word of a command (R76, R79). -/
def encode (i : Instr) : CmdWord := i.opcode ++ i.operandField

end Sys2Proof
end

