-- ==== Sys2Proof/Config.lean ====
section
/-! DEFINITION. What an implementation fixes (spec/00_scope.md R10) and the free values.

The parameters are a record of plain data that `State.params` holds, because the host fixes the form of
`exec` and `step` and leaves no other place for an argument (log 1). No command writes it, so a statement
for every state is a statement for every instance of the core. -/

namespace Sys2Proof

/-- Which counter function the instance has, the parameter `CtrFn` of R10: its default `CtrBlock` (R162),
or any other function of the counter base and the block index, named by a number and left uninterpreted
(`Config.ctrFnOther`, log 2). -/
inductive CtrFn where
  | ctrBlock
  | other (k : Nat)
deriving DecidableEq, Repr

/-- The implementation parameters of 00_scope.md R10. -/
structure Params where
  /-- `CLB`, the cache-line size in blocks, an integer >= 1. -/
  clb : Nat
  /-- `LANES`, the largest thread count; 0 is a core without the partitioner (R5). -/
  lanes : Nat
  /-- `DEV_PRESENT`; false is a core without the tiler (R5). -/
  devPresent : Bool
  /-- `DEV_CEIL`, the device allocation ceiling in blocks. -/
  devCeil : Nat
  /-- `KERNEL_OK`: the kernel was delivered. -/
  kernelOk : Bool
  /-- `LANE_OK`: lanes can be started and joined. -/
  laneOk : Bool
  /-- `CtrFn`. -/
  ctrFn : CtrFn
deriving DecidableEq, Repr

/-- The defaults R10 suggests. DESIGN CHOICE (log 1, unsafe): the instance `State.reset` has. -/
def Params.default : Params :=
  { clb := 4, lanes := 8, devPresent := true, devCeil := 4, kernelOk := true, laneOk := true,
    ctrFn := .ctrBlock }

/-- The legal values of the parameters: `CLB >= 1` (R10), and each of the three integers fits the 64-bit
register that shows it (10_state.md R31; DEDUCED, log 17). -/
abbrev Params.wf (p : Params) : Prop :=
  1 ≤ p.clb ∧ p.clb < 2 ^ 64 ∧ p.lanes < 2 ^ 64 ∧ p.devCeil < 2 ^ 64

/-- A counter function that is not the default one (R10, 93 U7): a free value, one uninterpreted function
for each number (log 2). -/
opaque Config.ctrFnOther : Nat → Block → Nat → Block

/-- What a read of a device buffer entry that holds no value gives (93 U9, `any value`): a free value,
by buffer index (log 11). -/
opaque Config.unwrittenBlock : Nat → Block

end Sys2Proof
end

