-- ==== Sys2Proof/Machine/State.lean ====
section
/-! DEFINITION. The state of the AES-128 CORE, as plain data (spec/10_state.md R20 to R42, spec/20_memory.md
R50 to R71), and the state after reset (R42, spec/70_reset_and_hazards.md R260). -/

namespace Sys2Proof.Machine

/-- Why the machine can stop with a fault. NO CONSTRUCTOR: every fault the spec describes is a transition to
the fatal state (60_exceptions.md R240), and no memory access raises anything (R239). Safe: no command is
stopped. -/
inductive Fault where
deriving DecidableEq, Repr

/-- Why a command can be refused by the model (not the `REFUSED` response of R241, which is a next state). -/
inductive Refusal where
  /-- The command has no meaning in this model yet; raised by an arm of `exec` only. No arm raises it. Safe. -/
  | notModelled (mnemonic : String)
deriving DecidableEq, Repr

/-- The response status `RSP` (30_encoding.md R82). -/
inductive Rsp where
  | ok | fault | refused
deriving DecidableEq, Repr

/-- The faults a command can raise (60_exceptions.md R236). -/
inductive ErrCode where
  | illegalCmd | uninit | range
  | badSize | badThreads | notDivisible | misaligned | overlap | kernelBuild
  | thread | device
deriving DecidableEq, Repr

/-- Host memory: (address, byte) pairs, addresses strictly rising, no entry equal to what an unlisted
address reads as (`Memory.wf`). -/
abbrev Memory := List Host.Cell

/-- A lane of the partitioner (10_state.md R32, 45_parallel_partitioner.md R180). -/
structure Lane where
  /-- `lane[t].start`, in blocks. -/
  start : Nat
  /-- `lane[t].count`, in blocks. -/
  count : Nat
  /-- `lane[t].next`, blocks done. -/
  next : Nat
  /-- `lane[t].blk`, the lane's block register; it "holds no value" at creation (R180). -/
  blk : Option Block
deriving DecidableEq, Repr

/-- The tiler while a `GPUDISP` runs (10_state.md R33, 20_memory.md R60). -/
structure Tiler where
  /-- `TILE`. -/
  tile : Nat
  /-- `OFFSET`. -/
  offset : Nat
  /-- `CNT`, blocks of the current tile; before the first tile, log 22. -/
  cnt : Nat
  /-- The kernel argument `ARG_OFFSET`; before the first tile, log 22. -/
  argOffset : Nat
  /-- `TILES`, tiles done. -/
  tiles : Nat
  /-- The device buffer `DEV_IN`; an entry holds no value until written (R60). -/
  devIn : List (Option Block)
  /-- The device buffer `DEV_OUT`. -/
  devOut : List (Option Block)
  /-- The device buffer `DEV_KS`, the schedule. -/
  devKs : List (Option Block)
  /-- The block register of each work-item of the running launch, no value before its step (R33). -/
  itemBlk : List (Option Block)
  /-- The work-items of the running launch that have not stepped yet (R203, R204). -/
  waiting : List Nat
deriving DecidableEq, Repr

/-- The agents of a bulk command (20_memory.md R71). -/
inductive Agent where
  | lane (t : Nat)
  | tiler
  | workItem (tile i : Nat)
deriving DecidableEq, Repr

/-- The two block buffers of the device that are read and written block by block. -/
inductive DevBuf where
  | devIn | devOut
deriving DecidableEq, Repr

/-- An event of a bulk command (20_memory.md R71). -/
inductive Event where
  | memRead (who : Agent) (addr : Nat) (v : Block)
  | memWrite (who : Agent) (addr : Nat) (v : Block)
  | devRead (who : Agent) (buf : DevBuf) (i : Nat) (v : Block)
  | devWrite (who : Agent) (buf : DevBuf) (i : Nat) (v : Block)
  /-- The one write of the schedule to `DEV_KS`. -/
  | scheduleWrite (ks : Vector Block 11)
  /-- A kernel launch with its `ARG_OFFSET` and its work-item count. -/
  | launch (argOffset items : Nat)
  /-- The wait for the kernel. -/
  | wait
  /-- The join of the lanes. -/
  | join
deriving DecidableEq, Repr

/-- What the host does next (00_scope.md R19, 10_state.md R41): present a command word with its operand
`WDATA`, pulse `rst`, or write one byte of host memory. -/
inductive HostMove where
  | command (cmd : CmdWord) (wdata : Block)
  | rst
  | store (addr : Word64) (b : Byte)
deriving DecidableEq, Repr

/-- The state of the machine. -/
structure State where
  /-- `S`, the block under transformation (10_state.md R21). -/
  regS : Block
  /-- `S_V` (R29). -/
  sV : Bool
  /-- `KEY` (R21). -/
  regKey : Block
  /-- `KEY_V` (R29). -/
  keyV : Bool
  /-- `CTR` (R21). -/
  regCtr : Block
  /-- `CTR_V` (R29). -/
  ctrV : Bool
  /-- `RK[0..10]` (R24). -/
  rk : Vector Block 11
  /-- `RKV[10:0]` (R24). -/
  rkv : BitVec 11
  /-- `IK[0..10]` (R26). -/
  ik : Vector Block 11
  /-- `IK_V` (R26). -/
  ikV : Bool
  /-- `FATAL` (R29). -/
  fatal : Bool
  /-- `ERRCODE` (R29). -/
  errCode : Byte
  /-- `N_BLOCKS` (R31). -/
  nBlocks : Word64
  /-- `THREADS` (R31). -/
  threads : Word64
  /-- `IN_BASE` (R31). -/
  inBase : Word64
  /-- `OUT_BASE` (R31). -/
  outBase : Word64
  /-- `GPU_OFFSET` (R31). -/
  gpuOffset : Word64
  /-- `GPU_TILE` (R31). -/
  gpuTile : Word64
  /-- `GPU_TILES` (R31). -/
  gpuTiles : Word64
  /-- The lanes of a running `PARENC` (R32); empty when none runs. -/
  lanes : List Lane
  /-- The tiler of a running `GPUDISP` (R33); none when none runs. -/
  tiler : Option Tiler
  /-- Host memory (20_memory.md R50). -/
  mem : Memory
  /-- The implementation parameters (00_scope.md R10), and the read-only registers that show them (R31). -/
  params : Params
  /-- `WDATA` at the command port (10_state.md R41, 30_encoding.md R78). -/
  wdata : Block
  /-- `RSP` of the last response (R41, R82). -/
  rsp : Rsp
  /-- `RDATA` of the last response (R41, R82). -/
  rdata : Block
  /-- The model's own: what the host does next, first move first (log 5). -/
  host : List HostMove
  /-- The model's own: the choices of the next lane or work-item (20_memory.md R62, log 9). -/
  sched : List Nat
  /-- The model's own: the event history of R71, newest event first (log 10). -/
  history : List Event
deriving DecidableEq, Repr

/-- The state after reset (10_state.md R42, 70_reset_and_hazards.md R260). DESIGN CHOICE where R42 says "no
value" (logs 1 to 5, 7, 9, 10). -/
def State.reset : State :=
  { regS := 0#128, sV := false
    regKey := 0#128, keyV := false
    regCtr := 0#128, ctrV := false
    rk := Vector.replicate 11 0#128, rkv := 0#11
    ik := Vector.replicate 11 0#128, ikV := false
    fatal := false, errCode := 0x00#8
    nBlocks := 0#64, threads := 0#64, inBase := 0#64, outBase := 0#64
    gpuOffset := 0#64, gpuTile := 0#64, gpuTiles := 0#64
    lanes := [], tiler := none
    mem := []
    params := Params.default
    wdata := 0#128, rsp := .ok, rdata := 0#128
    host := [], sched := [], history := [] }

end Sys2Proof.Machine
end

