-- ==== Sys2Proof/Machine/Bytes.lean ====
section
/-! DEFINITION. Bytes of blocks and words, in the byte orders of spec/00_scope.md R12 to R14. -/

namespace Sys2Proof.Machine

/-- Byte `k` of a block: bits `8k+7 .. 8k` (00_scope.md R12). -/
def byteAt (w : Block) (k : Nat) : Byte := w.extractLsb' (8 * k) 8

/-- The number whose base-256 digits are `f 0 .. f (n-1)`, `f 0` least significant. -/
def digits (f : Nat → Byte) : Nat → Nat
  | 0 => 0
  | n + 1 => digits f n + 256 ^ n * (f n).toNat

/-- The block with bytes `f 0 .. f 15` (00_scope.md R12). -/
def blockOf (f : Nat → Byte) : Block := BitVec.ofNat 128 (digits f 16)

/-- The block a 32-digit hexadecimal string names, `b[0]` first (00_scope.md R12). -/
def blockHex (n : Nat) : Block := blockOf fun k => BitVec.ofNat 8 (n >>> (8 * (15 - k)))

/-- `BE32(x0, x1, x2, x3)`: `x0` in bits 31 to 24 (00_scope.md R14). -/
def be32 (x0 x1 x2 x3 : Byte) : Word32 := x0 ++ x1 ++ x2 ++ x3

/-- Byte `j` of a word in the big-endian order of `BE32Bytes`: `w[31:24]` is byte 0 (00_scope.md R14). -/
def be32Byte (w : Word32) (j : Nat) : Byte := w.extractLsb' (8 * (3 - j)) 8

/-- Word `j` of a block in the big-endian view, `BE32` of its bytes `4j .. 4j+3` (10_state.md R24). -/
def wordAt (w : Block) (j : Nat) : Word32 :=
  be32 (byteAt w (4 * j)) (byteAt w (4 * j + 1)) (byteAt w (4 * j + 2)) (byteAt w (4 * j + 3))

/-- The block with bytes `BE32Bytes(q 0) .. BE32Bytes(q 3)` in that order (41_key_schedule_table.md R108). -/
def blockOfWords (q : Nat → Word32) : Block := blockOf fun k => be32Byte (q (k / 4)) (k % 4)

/-- The 32-bit lane `j` of a block, the byte with the lowest index least significant
(42_key_schedule_assisted.md R121). -/
def laneAt (w : Block) (j : Nat) : Word32 := w.extractLsb' (32 * j) 32

/-- The block whose lane `j` is `d j` (42_key_schedule_assisted.md R121). -/
def blockOfLanes (d : Nat → Word32) : Block :=
  blockOf fun k => (d (k / 4)).extractLsb' (8 * (k % 4)) 8

end Sys2Proof.Machine
end

