-- ==== Sys2Proof/Machine/Tables.lean ====
section
/-! DEFINITION. The constant tables (spec/10_state.md R36 to R40), transcribed row by row. Each table is
sixteen rows of sixteen bytes; a row is written as the spec prints it, the entry of column `x0` first. -/

namespace Sys2Proof.Machine

/-- Entry `a` of a table: row `a[7:4]`, column `a[3:0]`. -/
def tableEntry (rows : List Nat) (a : Byte) : Byte :=
  BitVec.ofNat 8 (rows.getD (a.toNat / 16) 0 >>> (8 * (15 - a.toNat % 16)))

/-- The rows of `SBOX` (10_state.md R36). -/
def sboxRows : List Nat :=
  [ 0x637c777bf26b6fc53001672bfed7ab76
  , 0xca82c97dfa5947f0add4a2af9ca472c0
  , 0xb7fd9326363ff7cc34a5e5f171d83115
  , 0x04c723c31896059a071280e2eb27b275
  , 0x09832c1a1b6e5aa0523bd6b329e32f84
  , 0x53d100ed20fcb15b6acbbe394a4c58cf
  , 0xd0efaafb434d338545f9027f503c9fa8
  , 0x51a3408f929d38f5bcb6da2110fff3d2
  , 0xcd0c13ec5f974417c4a77e3d645d1973
  , 0x60814fdc222a908846eeb814de5e0bdb
  , 0xe0323a0a4906245cc2d3ac629195e479
  , 0xe7c8376d8dd54ea96c56f4ea657aae08
  , 0xba78252e1ca6b4c6e8dd741f4bbd8b8a
  , 0x703eb5664803f60e613557b986c11d9e
  , 0xe1f8981169d98e949b1e87e9ce5528df
  , 0x8ca1890dbfe6426841992d0fb054bb16 ]

/-- `SBOX` (10_state.md R36). -/
def sbox (a : Byte) : Byte := tableEntry sboxRows a

/-- The rows of `INV_SBOX` (10_state.md R37). -/
def invSboxRows : List Nat :=
  [ 0x52096ad53036a538bf40a39e81f3d7fb
  , 0x7ce339829b2fff87348e4344c4dee9cb
  , 0x547b9432a6c2233dee4c950b42fac34e
  , 0x082ea16628d924b2765ba2496d8bd125
  , 0x72f8f66486689816d4a45ccc5d65b692
  , 0x6c704850fdedb9da5e154657a78d9d84
  , 0x90d8ab008cbcd30af7e45805b8b34506
  , 0xd02c1e8fca3f0f02c1afbd0301138a6b
  , 0x3a9111414f67dcea97f2cfcef0b4e673
  , 0x96ac7422e7ad3585e2f937e81c75df6e
  , 0x47f11a711d29c5896fb7620eaa18be1b
  , 0xfc563e4bc6d279209adbc0fe78cd5af4
  , 0x1fdda8338807c731b11210592780ec5f
  , 0x60517fa919b54a0d2de57a9f93c99cef
  , 0xa0e03b4dae2af5b0c8ebbb3c83539961
  , 0x172b047eba77d626e169146355210c7d ]

/-- `INV_SBOX` (10_state.md R37). -/
def invSbox (a : Byte) : Byte := tableEntry invSboxRows a

/-- The rows of `MUL2` (10_state.md R38). -/
def mul2Rows : List Nat :=
  [ 0x00020406080a0c0e10121416181a1c1e
  , 0x20222426282a2c2e30323436383a3c3e
  , 0x40424446484a4c4e50525456585a5c5e
  , 0x60626466686a6c6e70727476787a7c7e
  , 0x80828486888a8c8e90929496989a9c9e
  , 0xa0a2a4a6a8aaacaeb0b2b4b6b8babcbe
  , 0xc0c2c4c6c8caccced0d2d4d6d8dadcde
  , 0xe0e2e4e6e8eaeceef0f2f4f6f8fafcfe
  , 0x1b191f1d131117150b090f0d03010705
  , 0x3b393f3d333137352b292f2d23212725
  , 0x5b595f5d535157554b494f4d43414745
  , 0x7b797f7d737177756b696f6d63616765
  , 0x9b999f9d939197958b898f8d83818785
  , 0xbbb9bfbdb3b1b7b5aba9afada3a1a7a5
  , 0xdbd9dfddd3d1d7d5cbc9cfcdc3c1c7c5
  , 0xfbf9fffdf3f1f7f5ebe9efede3e1e7e5 ]

/-- `MUL2` (10_state.md R38). -/
def mul2 (a : Byte) : Byte := tableEntry mul2Rows a

/-- The rows of `MUL3` (10_state.md R39). -/
def mul3Rows : List Nat :=
  [ 0x000306050c0f0a09181b1e1d14171211
  , 0x303336353c3f3a39282b2e2d24272221
  , 0x606366656c6f6a69787b7e7d74777271
  , 0x505356555c5f5a59484b4e4d44474241
  , 0xc0c3c6c5cccfcac9d8dbdeddd4d7d2d1
  , 0xf0f3f6f5fcfffaf9e8ebeeede4e7e2e1
  , 0xa0a3a6a5acafaaa9b8bbbebdb4b7b2b1
  , 0x909396959c9f9a99888b8e8d84878281
  , 0x9b989d9e97949192838085868f8c898a
  , 0xaba8adaea7a4a1a2b3b0b5b6bfbcb9ba
  , 0xfbf8fdfef7f4f1f2e3e0e5e6efece9ea
  , 0xcbc8cdcec7c4c1c2d3d0d5d6dfdcd9da
  , 0x5b585d5e57545152434045464f4c494a
  , 0x6b686d6e67646162737075767f7c797a
  , 0x3b383d3e37343132232025262f2c292a
  , 0x0b080d0e07040102131015161f1c191a ]

/-- `MUL3` (10_state.md R39). -/
def mul3 (a : Byte) : Byte := tableEntry mul3Rows a

/-- `RCON[r]`, `r = 1 .. 10` (10_state.md R40). There is no other entry; the value 0 outside the range is
never read, because `KSTEPT` and `KASSIST` take `r` in 1 .. 10 only. -/
def rcon (r : Nat) : Byte :=
  match r with
  | 1 => 0x01#8
  | 2 => 0x02#8
  | 3 => 0x04#8
  | 4 => 0x08#8
  | 5 => 0x10#8
  | 6 => 0x20#8
  | 7 => 0x40#8
  | 8 => 0x80#8
  | 9 => 0x1B#8
  | 10 => 0x36#8
  | _ => 0x00#8

end Sys2Proof.Machine
end

