-- ==== Sys2Proof/Machine/Field.lean ====
section
/-! DEFINITION. The Galois-field multiplier (spec/40_galois_field.md R95, R96). -/

namespace Sys2Proof.Machine

/-- `a` times `x`, kept reduced: shift left, and XOR 0x1B when the top bit was set before the shift (R96). -/
def timesX (a : Byte) : Byte := if a.getLsbD 7 then (a <<< 1) ^^^ 0x1B#8 else a <<< 1

/-- `n` passes of the loop of R96, on `p`, `a`, `b`. -/
def multiplyLoop : Nat → Byte → Byte → Byte → Byte
  | 0, p, _, _ => p
  | n + 1, p, a, b => multiplyLoop n (if b.getLsbD 0 then p ^^^ a else p) (timesX a) (b >>> 1)

/-- `Multiply(a, b)` (R96): eight passes. -/
def multiply (a b : Byte) : Byte := multiplyLoop 8 0x00#8 a b

end Sys2Proof.Machine
end

