-- ==== Sys2Proof/Machine/Transform.lean ====
section
/-! DEFINITION. The round transformations and their inverses, the key schedule functions and the whole-block
cipher, as pure functions (spec/43_round_primitives.md R136 to R142, spec/41_key_schedule_table.md R106 to R108,
spec/42_key_schedule_assisted.md R121 to R123, spec/44_block_cipher.md R161 to R163). Every one is total and
has no state (00_scope.md R16). -/

namespace Sys2Proof.Machine

/-! The four transformations and their inverses. -/

/-- `SubBytes` (43_round_primitives.md R136). -/
def subBytes (s : Block) : Block := blockOf fun k => sbox (byteAt s k)

/-- `InvSubBytes` (R140). -/
def invSubBytes (s : Block) : Block := blockOf fun k => invSbox (byteAt s k)

/-- `ShiftRows` (R137): row `r = k mod 4` of column `c = k div 4` comes from column `(c + r) mod 4`. -/
def shiftRows (s : Block) : Block :=
  blockOf fun k => byteAt s (4 * ((k / 4 + k % 4) % 4) + k % 4)

/-- `InvShiftRows` (R141): from column `(c - r) mod 4`. -/
def invShiftRows (s : Block) : Block :=
  blockOf fun k => byteAt s (4 * ((k / 4 + 4 - k % 4) % 4) + k % 4)

/-- Row `i` of the column mix of R138 for a column `a0, a1, a2, a3`, with the two multiplications given. -/
def mixRow (m2 m3 : Byte → Byte) (a0 a1 a2 a3 : Byte) (i : Nat) : Byte :=
  match i with
  | 0 => m2 a0 ^^^ m3 a1 ^^^ a2 ^^^ a3
  | 1 => a0 ^^^ m2 a1 ^^^ m3 a2 ^^^ a3
  | 2 => a0 ^^^ a1 ^^^ m2 a2 ^^^ m3 a3
  | _ => m3 a0 ^^^ a1 ^^^ a2 ^^^ m2 a3

/-- Row `i` of the inverse column mix of R142. -/
def invMixRow (a0 a1 a2 a3 : Byte) (i : Nat) : Byte :=
  match i with
  | 0 => multiply 0x0E#8 a0 ^^^ multiply 0x0B#8 a1 ^^^ multiply 0x0D#8 a2 ^^^ multiply 0x09#8 a3
  | 1 => multiply 0x09#8 a0 ^^^ multiply 0x0E#8 a1 ^^^ multiply 0x0B#8 a2 ^^^ multiply 0x0D#8 a3
  | 2 => multiply 0x0D#8 a0 ^^^ multiply 0x09#8 a1 ^^^ multiply 0x0E#8 a2 ^^^ multiply 0x0B#8 a3
  | _ => multiply 0x0B#8 a0 ^^^ multiply 0x0D#8 a1 ^^^ multiply 0x09#8 a2 ^^^ multiply 0x0E#8 a3

/-- A block transformed column by column: byte `4c + i` of the result is row `i` of `f` on column `c`. -/
def mapColumns (f : Byte → Byte → Byte → Byte → Nat → Byte) (s : Block) : Block :=
  blockOf fun k =>
    f (byteAt s (4 * (k / 4))) (byteAt s (4 * (k / 4) + 1)) (byteAt s (4 * (k / 4) + 2))
      (byteAt s (4 * (k / 4) + 3)) (k % 4)

/-- `MixColumns` (R138), through `Multiply`. -/
def mixColumns (s : Block) : Block := mapColumns (mixRow (multiply 0x02#8) (multiply 0x03#8)) s

/-- `MixColumns` in the table-driven form, through `MUL2` and `MUL3` (R138, R145). -/
def mixColumnsT (s : Block) : Block := mapColumns (mixRow mul2 mul3) s

/-- `InvMixColumns` (R142), through `Multiply`. -/
def invMixColumns (s : Block) : Block := mapColumns invMixRow s

/-- `AddRoundKey` (R139): byte by byte, that is `s xor k` as words. -/
def addRoundKey (s k : Block) : Block := s ^^^ k

/-! The key schedule, table-driven path. -/

/-- `RotWord(w) = {w[23:0], w[31:24]}` (41_key_schedule_table.md R106). -/
def rotWord (w : Word32) : Word32 := w.extractLsb' 0 24 ++ w.extractLsb' 24 8

/-- `SubWord` (R107): each of the four bytes through `SBOX`, in place. -/
def subWord (w : Word32) : Word32 :=
  be32 (sbox (be32Byte w 0)) (sbox (be32Byte w 1)) (sbox (be32Byte w 2)) (sbox (be32Byte w 3))

/-- `G(w, r) = SubWord(RotWord(w)) xor (zext_32(RCON[r]) << 24)` (R107). -/
def keyG (w : Word32) (r : Nat) : Word32 := subWord (rotWord w) ^^^ ((rcon r).setWidth 32 <<< 24)

/-- Word `j` of `NextRoundKeyT(p, r)`, `j = 0 .. 3` (R108). -/
def nextWordT (p : Block) (r : Nat) : Nat → Word32
  | 0 => wordAt p 0 ^^^ keyG (wordAt p 3) r
  | j + 1 => wordAt p (j + 1) ^^^ nextWordT p r j

/-- `NextRoundKeyT(p, r)` (R108). -/
def nextRoundKeyT (p : Block) (r : Nat) : Block := blockOfWords (nextWordT p r)

/-! The key schedule, hardware-assisted path. -/

/-- `SubLane(D)`: `SBOX` on each byte of the lane, in place (42_key_schedule_assisted.md R121). -/
def subLane (d : Word32) : Word32 :=
  sbox (d.extractLsb' 24 8) ++ sbox (d.extractLsb' 16 8) ++ sbox (d.extractLsb' 8 8)
    ++ sbox (d.extractLsb' 0 8)

/-- `RotLane(D) = {D[7:0], D[31:8]}` (R121). -/
def rotLane (d : Word32) : Word32 := d.extractLsb' 0 8 ++ d.extractLsb' 8 24

/-- Lane `j` of `KeyGenAssist(x, rc)` (R121). -/
def keyGenLane (x : Block) (rc : Byte) (j : Nat) : Word32 :=
  match j with
  | 0 => subLane (laneAt x 1)
  | 1 => rotLane (subLane (laneAt x 1)) ^^^ rc.setWidth 32
  | 2 => subLane (laneAt x 3)
  | _ => rotLane (subLane (laneAt x 3)) ^^^ rc.setWidth 32

/-- `KeyGenAssist(x, rc)` (R121). -/
def keyGenAssist (x : Block) (rc : Byte) : Block := blockOfLanes (keyGenLane x rc)

/-- `ShiftUp4(v) = (v << 32)[127:0]` (R122). -/
def shiftUp4 (v : Block) : Block := v <<< 32

/-- `Bcast3(t)`: every lane is lane 3 of `t` (R122). -/
def bcast3 (t : Block) : Block := blockOfLanes fun _ => laneAt t 3

/-- One `k <- k xor ShiftUp4(k)` of R122. -/
def prefixXor (k : Block) : Block := k ^^^ shiftUp4 k

/-- `AssistMix(k, t)` (R122). -/
def assistMix (k t : Block) : Block := prefixXor (prefixXor (prefixXor k)) ^^^ bcast3 t

/-- `NextRoundKeyV(p, r) = AssistMix(p, KeyGenAssist(p, RCON[r]))` (R123). -/
def nextRoundKeyV (p : Block) (r : Nat) : Block := assistMix p (keyGenAssist p (rcon r))

/-! Whole schedules. -/

/-- Round key `r` of a key, by a next-round-key function (R112, R125). -/
def roundKeyBy (next : Block → Nat → Block) (key : Block) : Nat → Block
  | 0 => key
  | r + 1 => next (roundKeyBy next key r) (r + 1)

/-- The eleven round keys with `RK[r] = f r`. -/
def schedule (f : Nat → Block) : Vector Block 11 :=
  #v[f 0, f 1, f 2, f 3, f 4, f 5, f 6, f 7, f 8, f 9, f 10]

/-- Entry `r` of a schedule array, `r = 0 .. 10`; no command names another (30_encoding.md R85), and the value
0 beyond is never used. -/
def roundKey (ks : Vector Block 11) (r : Nat) : Block := ks[r]?.getD 0#128

/-- The schedule with entry `r` replaced. -/
def setRoundKey (ks : Vector Block 11) (r : Nat) (v : Block) : Vector Block 11 := ks.setIfInBounds r v

/-- `IK[r]` from the round keys: `InvMixColumns` for `r = 1 .. 9`, unchanged for 0 and 10
(42_key_schedule_assisted.md R126). -/
def inverseRoundKey (rk : Nat → Block) (r : Nat) : Block :=
  if 1 ≤ r ∧ r ≤ 9 then invMixColumns (rk r) else rk r

/-! The whole-block cipher. A schedule is given as the function from the round to its key. -/

/-- The optional counter XOR (44_block_cipher.md R161, R163). -/
def xorCounter (s : Block) : Option Block → Block
  | none => s
  | some ctr => s ^^^ ctr

/-- `f n (.. (f 2 (f 1 s)))`: rounds 1 to `n` in increasing order. -/
def roundsUp (f : Nat → Block → Block) : Nat → Block → Block
  | 0, s => s
  | n + 1, s => f (n + 1) (roundsUp f n s)

/-- `f 1 (.. (f (n-1) (f n s)))`: rounds `n` to 1 in decreasing order. -/
def roundsDown (f : Nat → Block → Block) : Nat → Block → Block
  | 0, s => s
  | n + 1, s => roundsDown f n (f (n + 1) s)

/-- A middle round of encryption (R161, R151), with the column mix given. -/
def encRound (mix : Block → Block) (k s : Block) : Block :=
  addRoundKey (mix (shiftRows (subBytes s))) k

/-- The last round of encryption, without the column mix (R161, R152). -/
def encLastRound (k s : Block) : Block := addRoundKey (shiftRows (subBytes s)) k

/-- A middle round of decryption (R163, R153). -/
def decRound (k s : Block) : Block := addRoundKey (invMixColumns (invSubBytes (invShiftRows s))) k

/-- The last round of decryption (R163, R154). -/
def decLastRound (k s : Block) : Block := addRoundKey (invSubBytes (invShiftRows s)) k

/-- Encryption with the column mix given: the counter XOR, round 0, rounds 1 .. 9, round 10 (R161). -/
def encryptWith (mix : Block → Block) (b : Block) (rk : Nat → Block) (ctr : Option Block) : Block :=
  encLastRound (rk 10)
    (roundsUp (fun r s => encRound mix (rk r) s) 9 (addRoundKey (xorCounter b ctr) (rk 0)))

/-- `EncryptBlock(b, rk, ctr)` (R161). -/
def encryptBlock (b : Block) (rk : Nat → Block) (ctr : Option Block) : Block :=
  encryptWith mixColumns b rk ctr

/-- `EncryptBlock` through the table-driven path, `MixColumns` through `MUL2` and `MUL3` (R164). -/
def encryptT (b : Block) (rk : Nat → Block) (ctr : Option Block) : Block :=
  encryptWith mixColumnsT b rk ctr

/-- `EncryptBlock` through the hardware-instruction path: round 0 an XOR, rounds 1 to 9 the fused round of
`VENC`, round 10 that of `VENCLAST` (R165). -/
def encryptV (b : Block) (rk : Nat → Block) (ctr : Option Block) : Block :=
  encryptWith mixColumns b rk ctr

/-- `DecryptBlock(b, ik, ctr)` (R163): the counter XOR comes last. -/
def decryptBlock (b : Block) (ik : Nat → Block) (ctr : Option Block) : Block :=
  xorCounter
    (decLastRound (ik 0) (roundsDown (fun r s => decRound (ik r) s) 9 (addRoundKey b (ik 10)))) ctr

/-- `CtrBlock(base, g)`: the block whose 128-bit word is `(base + g) mod 2^128` (R162). -/
def ctrBlock (base : Block) (g : Nat) : Block := base + BitVec.ofNat 128 g

end Sys2Proof.Machine
end

