-- ==== Sys2Proof/Machine/Operands.lean ====
section
/-! DEFINITION. Where commands take their operands from: `WDATA`, the round keys, the configuration
registers, block addresses, the counter (spec/30_encoding.md R77, R78, spec/10_state.md R27, R31). -/

namespace Sys2Proof.Machine

/-- `WDATA[63:0]`, the operand of `WRCFG`; bits 127:64 are ignored (30_encoding.md R78). -/
def wdataLow (s : State) : Word64 := s.wdata.setWidth 64

/-- `zext_128` of a byte (00_scope.md R11). -/
def zextByte (b : Byte) : Block := b.setWidth 128

/-- `zext_128` of a 64-bit register (00_scope.md R11). -/
def zextWord64 (w : Word64) : Block := w.setWidth 128

/-- `N`, the number of blocks of a BlockBuffer (10_state.md R31). -/
def numBlocks (s : State) : Nat := s.nBlocks.toNat

/-- Byte address of block `i` of the input buffer, `IN_BASE + 16*i` (20_memory.md R51). -/
def inAddr (s : State) (i : Nat) : Nat := s.inBase.toNat + 16 * i

/-- Byte address of block `i` of the output buffer, `OUT_BASE + 16*i` (20_memory.md R51). -/
def outAddr (s : State) (i : Nat) : Nat := s.outBase.toNat + 16 * i

/-- `RK[r]` (10_state.md R24). -/
def rkAt (s : State) (r : Nat) : Block := roundKey s.rk r

/-- `IK[r]` (10_state.md R26). -/
def ikAt (s : State) (r : Nat) : Block := roundKey s.ik r

/-- `CtrFn(base, g)` of this instance (00_scope.md R10, 44_block_cipher.md R162, log 2). -/
def counterOf (p : Params) (base : Block) (g : Nat) : Block :=
  match p.ctrFn with
  | .ctrBlock => ctrBlock base g
  | .other k => Config.ctrFnOther k base g

/-- The counter operand of a single-block command: `CTR` itself when `c = 1`, else absent; `CtrFn` is not
called (44_block_cipher.md R164). -/
def counterOperand (c : Bool) (s : State) : Option Block := if c then some s.regCtr else none

/-- `DEV_CEIL` as its register shows it: 0 when `DEV_PRESENT` is false (10_state.md R31). -/
def devCeilShown (p : Params) : Word64 := if p.devPresent then BitVec.ofNat 64 p.devCeil else 0#64

/-- `DEV_INFO`: bit 0 is `DEV_PRESENT` (10_state.md R31). -/
def devInfo (p : Params) : Word64 := if p.devPresent then 1#64 else 0#64

/-- What a configuration register reads (10_state.md R31). -/
def readCfg (s : State) : CfgReg → Word64
  | .nBlocks => s.nBlocks
  | .threads => s.threads
  | .inBase => s.inBase
  | .outBase => s.outBase
  | .clb => BitVec.ofNat 64 s.params.clb
  | .lanes => BitVec.ofNat 64 s.params.lanes
  | .devCeil => devCeilShown s.params
  | .devInfo => devInfo s.params
  | .gpuOffset => s.gpuOffset
  | .gpuTile => s.gpuTile
  | .gpuTiles => s.gpuTiles

/-- The write of a configuration register; a read-only one is not written (10_state.md R31). -/
def writeCfg (q : CfgReg) (v : Word64) (s : State) : State :=
  match q with
  | .nBlocks => { s with nBlocks := v }
  | .threads => { s with threads := v }
  | .inBase => { s with inBase := v }
  | .outBase => { s with outBase := v }
  | .clb | .lanes | .devCeil | .devInfo | .gpuOffset | .gpuTile | .gpuTiles => s

end Sys2Proof.Machine
end

