-- ==== Sys2Proof/Machine/Flags.lean ====
section
/-! DEFINITION. The flags: valid bits, the fault codes and the status word (spec/10_state.md R29, R30,
spec/60_exceptions.md R236). There are no condition codes (R29). -/

namespace Sys2Proof.Machine

/-- The code of a fault (60_exceptions.md R236). -/
def errByte : ErrCode → Byte
  | .illegalCmd => 0x01#8
  | .uninit => 0x02#8
  | .range => 0x03#8
  | .badSize => 0x10#8
  | .badThreads => 0x11#8
  | .notDivisible => 0x12#8
  | .misaligned => 0x13#8
  | .overlap => 0x14#8
  | .kernelBuild => 0x15#8
  | .thread => 0x20#8
  | .device => 0x21#8

/-- `RKV[r]` (10_state.md R24). -/
def rkValid (s : State) (r : Nat) : Bool := s.rkv.getLsbD r

/-- `KS_V`: all eleven bits of `RKV` (10_state.md R24). -/
def ksValid (s : State) : Bool := s.rkv == 0x7FF#11

/-- `RKV` with bit `r` set (10_state.md R29). -/
def setRkv (v : BitVec 11) (r : Nat) : BitVec 11 := v ||| (1#11 <<< r)

/-- `CTR_V`, tested only when the counter is asked for (44_block_cipher.md R164). -/
def ctrOk (c : Bool) (s : State) : Bool := !c || s.ctrV

/-- The status word `RDSTAT` responds with (10_state.md R30). -/
def statusWord (s : State) : Block :=
  0#101 ++ s.rkv ++ s.errCode ++ 0#3 ++ BitVec.ofBool s.ikV ++ BitVec.ofBool s.ctrV ++ BitVec.ofBool s.sV
    ++ BitVec.ofBool s.keyV ++ BitVec.ofBool s.fatal

end Sys2Proof.Machine
end

