-- ==== Sys2Proof/Machine/Ops.lean ====
section
/-! DEFINITION. The named operations over memory, registers, the response and the fatal state, and the
frame of every command (spec/20_memory.md R50 to R56, spec/60_exceptions.md R240, R241, R243,
spec/30_encoding.md R82, spec/70_reset_and_hazards.md R260). -/

namespace Sys2Proof.Machine

/-! Host memory. -/

/-- What a byte nobody has written reads as. DESIGN CHOICE 0 (log 7, unsafe): the spec gives host memory no
contents (10_state.md R42). -/
def unlistedByte (_a : Nat) : Byte := 0x00#8

/-- The canonical form from address `lo` on: addresses strictly rising and below 2^64, no entry equal to
what an unlisted address reads as. -/
def Memory.wfFrom (lo : Nat) : Memory → Bool
  | [] => true
  | (a, b) :: rest => decide (lo ≤ a) && decide (a < 2 ^ 64) && (b != unlistedByte a) && Memory.wfFrom (a + 1) rest

/-- The canonical form of memory. -/
def Memory.wf (m : Memory) : Bool := Memory.wfFrom 0 m

/-- The byte at an address. -/
def Memory.read : Memory → Nat → Byte
  | [], a => unlistedByte a
  | (k, b) :: rest, a => if k = a then b else Memory.read rest a

/-- The write of one byte; writing what an unlisted address reads as removes the entry. -/
def Memory.write : Memory → Nat → Byte → Memory
  | [], a, b => if b = unlistedByte a then [] else [(a, b)]
  | (k, c) :: rest, a, b =>
    if a < k then (if b = unlistedByte a then (k, c) :: rest else (a, b) :: (k, c) :: rest)
    else if a = k then (if b = unlistedByte a then rest else (a, b) :: rest)
    else (k, c) :: Memory.write rest a b

/-- `MemRead(addr, 16)` as a block, byte `k` from `addr + k` (20_memory.md R52, R55). -/
def Memory.readBlock (m : Memory) (addr : Nat) : Block := blockOf fun k => m.read (addr + k)

/-- The write of the first `n` bytes of a block from `addr` on. -/
def Memory.writeBytes (m : Memory) (addr : Nat) (v : Block) : Nat → Memory
  | 0 => m
  | n + 1 => Memory.write (Memory.writeBytes m addr v n) (addr + n) (byteAt v n)

/-- `MemWrite(addr, 16, v)` (20_memory.md R52, R55). -/
def Memory.writeBlock (m : Memory) (addr : Nat) (v : Block) : Memory := Memory.writeBytes m addr v 16

/-! The response (30_encoding.md R82). -/

/-- `respond(v)`: `RSP = OK`, `RDATA = v` (00_scope.md R15, 30_encoding.md R82). -/
def respond (v : Block) (s : State) : State := { s with rsp := .ok, rdata := v }

/-- A command that ran to its end and says no `respond`: `RDATA = 0` (30_encoding.md R82). -/
def respondZero (s : State) : State := respond 0#128 s

/-- `raise Fault(code)`: `FATAL`, `ERRCODE` and the response, and no other change (60_exceptions.md R240).
There is no handler, no saved state and no return (R240, R248). -/
def raiseFault (e : ErrCode) (s : State) : State :=
  { s with fatal := true, errCode := errByte e, rsp := .fault, rdata := zextByte (errByte e) }

/-- The response `(REFUSED, zext_128(ERRCODE))` of the fatal state (60_exceptions.md R241). -/
def refuse (s : State) : State := { s with rsp := .refused, rdata := zextByte s.errCode }

/-- The reset of the core (70_reset_and_hazards.md R260, 10_state.md R42): every register, valid bit and
configuration register as after reset. Host memory and the parameters are not changed (R42); the host's own
lines and lists are not the core's and stay (log 15). -/
def resetCore (s : State) : State :=
  { State.reset with
    mem := s.mem, params := s.params, wdata := s.wdata, host := s.host, sched := s.sched, history := s.history }

/-! The frame of a command: the tests in the order of 60_exceptions.md R243. -/

/-- What a command does: in the fatal state it is refused (R241), else it runs `body`. -/
def command (body : State → State) (s : State) : Host.Outcome State Fault Refusal :=
  .next (if s.fatal then refuse s else body s)

/-- A command the fatal state does not refuse: `RDSTAT` and `SRESET` (60_exceptions.md R241). -/
def commandAlways (body : State → State) (s : State) : Host.Outcome State Fault Refusal := .next (body s)

/-- An operand outside its legal range makes the command illegal (30_encoding.md R83, log 16). -/
def legal (ok : Bool) (body : State → State) (s : State) : State :=
  if ok then body s else raiseFault .illegalCmd s

/-- `require V` (00_scope.md R15, 60_exceptions.md R237). -/
def require (valid : State → Bool) (body : State → State) (s : State) : State :=
  if valid s then body s else raiseFault .uninit s

/-- A test of a command that raises `e` when it fails (60_exceptions.md R243 point 4). -/
def check (ok : State → Bool) (e : ErrCode) (body : State → State) (s : State) : State :=
  if ok s then body s else raiseFault e s

/-- The first failing test of a list, in order (60_exceptions.md R243). -/
def firstFailure : List (Bool × ErrCode) → Option ErrCode
  | [] => none
  | (ok, e) :: rest => if ok then firstFailure rest else some e

/-- The tests of a bulk command, all before its first access (60_exceptions.md R240): the first that fails
raises its fault, else the command runs. -/
def checkAll (tests : State → List (Bool × ErrCode)) (body : State → State) (s : State) : State :=
  match firstFailure (tests s) with
  | some e => raiseFault e s
  | none => body s

/-! Register writes. -/

/-- `S <- v` with `S_V <- 1` (10_state.md R29). -/
def writeS (v : Block) (s : State) : State := { s with regS := v, sV := true }

/-- `RK[r] <- v` with `RKV[r] <- 1` (10_state.md R24, R29). -/
def writeRk (r : Nat) (v : Block) (s : State) : State :=
  { s with rk := setRoundKey s.rk r v, rkv := setRkv s.rkv r }

/-- The whole schedule written, `RKV <- 0x7FF` (41_key_schedule_table.md R112). -/
def writeSchedule (ks : Vector Block 11) (s : State) : State := { s with rk := ks, rkv := 0x7FF#11 }

/-- An in-place transformation of the block in `S`: `require S_V; S <- f(S)`; `S_V` stays 1 (R143). -/
def transformS (f : State → Block → Block) (s : State) : State :=
  require (fun s => s.sV) (fun s => respondZero { s with regS := f s s.regS }) s

/-- A recorded event (20_memory.md R71). -/
def record (es : List Event) (s : State) : State := { s with history := es ++ s.history }

/-! The two buffers. -/

/-- `IN_BASE + 16*N <= 2^64` and `OUT_BASE + 16*N <= 2^64` (20_memory.md R55). -/
def buffersInRange (s : State) : Bool :=
  decide (inAddr s (numBlocks s) ≤ 2 ^ 64) && decide (outAddr s (numBlocks s) ≤ 2 ^ 64)

/-- What a command that accesses one block does before and at its access, where `addr s i` is the address of
block `i`: the two range tests of 47_host_commands.md R223 and R224 in their order, then the test that
20_memory.md R55 puts before every access, on both buffers whole (log 21). All three raise `E_RANGE`. -/
def blockAccess (addr : State → Nat → Nat) (idx : Nat) (body : State → State) : State → State :=
  check (fun s => decide (idx < numBlocks s)) .range
    (check (fun s => decide (addr s (idx + 1) ≤ 2 ^ 64)) .range (check buffersInRange .range body))

/-- `OUT_BASE = IN_BASE`, or the two byte ranges do not meet (20_memory.md R61). -/
def buffersApart (s : State) : Bool :=
  s.outBase == s.inBase || decide (inAddr s (numBlocks s) ≤ s.outBase.toNat)
    || decide (outAddr s (numBlocks s) ≤ s.inBase.toNat)

/-- The next agent among those that may step, and the choice used up: the head of `sched` picks one of
them, an empty `sched` picks the first (20_memory.md R62, log 9). -/
def pick (sched : List Nat) (enabled : List Nat) : Option Nat := enabled[sched.headD 0 % enabled.length]?

/-- `f 0`, `f 1`, .. `f (n-1)` in order. -/
def forUpTo (f : Nat → State → State) : Nat → State → State
  | 0, s => s
  | n + 1, s => f n (forUpTo f n s)

end Sys2Proof.Machine
end

