-- ==== Sys2Proof/Machine/Cipher.lean ====
section
/-! DEFINITION. The whole-block commands (spec/44_block_cipher.md R164 to R166). -/

namespace Sys2Proof.Machine

/-- A whole-block command: `require S_V`, the schedule's valid bits, `CTR_V` when `c = 1`; `S` is transformed
in place and the new `S` is the response. -/
def wholeBlock (schedOk : State → Bool) (f : State → Block → Option Block → Block) (c : Bool) (s : State) :
    State :=
  require (fun s => s.sV)
    (require schedOk
      (require (ctrOk c) fun s =>
        respond (f s s.regS (counterOperand c s)) { s with regS := f s s.regS (counterOperand c s) })) s

/-- `ENCT` / `ENCT.C` (R164): the table-driven path. -/
def execEnct (c : Bool) (s : State) : Host.Outcome State Fault Refusal :=
  command (wholeBlock ksValid (fun s b ctr => encryptT b (rkAt s) ctr) c) s

/-- `ENCV` / `ENCV.C` (R165): the hardware-instruction path. -/
def execEncv (c : Bool) (s : State) : Host.Outcome State Fault Refusal :=
  command (wholeBlock ksValid (fun s b ctr => encryptV b (rkAt s) ctr) c) s

/-- `DECV` / `DECV.C` (R166). -/
def execDecv (c : Bool) (s : State) : Host.Outcome State Fault Refusal :=
  command (wholeBlock (fun s => s.ikV) (fun s b ctr => decryptBlock b (ikAt s) ctr) c) s

end Sys2Proof.Machine
end

