-- ==== Sys2Proof/Machine/DataMove.lean ====
section
/-! DEFINITION. Register and block data movement (spec/47_host_commands.md R220 to R224). -/

namespace Sys2Proof.Machine

/-- `LDS` (R220). -/
def execLds (s : State) : Host.Outcome State Fault Refusal :=
  command (fun s => respondZero (writeS s.wdata s)) s

/-- `RDS` (R221). -/
def execRds (s : State) : Host.Outcome State Fault Refusal :=
  command (require (fun s => s.sV) fun s => respond s.regS s) s

/-- `LDCTR` (R222). -/
def execLdctr (s : State) : Host.Outcome State Fault Refusal :=
  command (fun s => respondZero { s with regCtr := s.wdata, ctrV := true }) s

/-- `LDBLK idx` (R223): the range tests, then the block of the input buffer; no alignment test. -/
def execLdblk (idx : BitVec 24) (s : State) : Host.Outcome State Fault Refusal :=
  command
    (blockAccess inAddr idx.toNat fun s =>
      respondZero (writeS (s.mem.readBlock (inAddr s idx.toNat)) s)) s

/-- `STBLK idx` (R224): `require S_V`, the range tests, then the block of the output buffer. -/
def execStblk (idx : BitVec 24) (s : State) : Host.Outcome State Fault Refusal :=
  command
    (require (fun s => s.sV)
      (blockAccess outAddr idx.toNat fun s =>
        respondZero { s with mem := s.mem.writeBlock (outAddr s idx.toNat) s.regS })) s

end Sys2Proof.Machine
end

