-- ==== Sys2Proof/Machine/Galois.lean ====
section
/-! DEFINITION. The Galois-field commands (spec/40_galois_field.md R97 to R99): they read and write no
state but the response. -/

namespace Sys2Proof.Machine

/-- `GFMUL a, b` (R97). -/
def execGfmul (a b : Byte) (s : State) : Host.Outcome State Fault Refusal :=
  command (fun s => respond (zextByte (multiply a b)) s) s

/-- `GFMUL2 a` (R98): the table, not the multiplier. -/
def execGfmul2 (a : Byte) (s : State) : Host.Outcome State Fault Refusal :=
  command (fun s => respond (zextByte (mul2 a)) s) s

/-- `GFMUL3 a` (R99): the table, not the multiplier. -/
def execGfmul3 (a : Byte) (s : State) : Host.Outcome State Fault Refusal :=
  command (fun s => respond (zextByte (mul3 a)) s) s

end Sys2Proof.Machine
end

