-- ==== Sys2Proof/Machine/GpuTiler.lean ====
section
/-! DEFINITION. The GPU batch tiler (spec/46_gpu_batch_tiler.md R195 to R212).

The tiler sequencer and the work-items are agents of their own (R200, R203). One step of the machine runs a
`GPUDISP` from its checks to its finish; the work-items of a launch step in the order `State.sched` picks
(logs 8 and 9). -/

namespace Sys2Proof.Machine

/-- The tests of R197, in its order. No alignment test, and `CTR_V` is not tested (R197). -/
def gpuTests (s : State) : List (Bool × ErrCode) :=
  [ (ksValid s, .uninit),
    (decide (1 ≤ numBlocks s), .badSize),
    (buffersInRange s, .range),
    (buffersApart s, .overlap),
    (s.params.devPresent, .device),
    (s.params.kernelOk, .kernelBuild),
    (decide (1 ≤ s.params.devCeil), .device) ]

/-- `TILE = min(N, C)` (R199). -/
def tileSize (s : State) : Nat := min (numBlocks s) s.params.devCeil

/-- The tiler at set-up (R199): the buffers hold no values yet, then the schedule is written to `DEV_KS`.
DESIGN CHOICE: R199 gives `CNT`, `ARG_OFFSET` and the work-items no value at set-up; the two counters start at 0
and the work-item lists empty, and R201, R202 and R203 write them before anything reads them (log 22). -/
def newTiler (s : State) : Tiler :=
  { tile := tileSize s, offset := 0, cnt := 0, argOffset := 0, tiles := 0
    devIn := List.replicate (tileSize s) none
    devOut := List.replicate (tileSize s) none
    devKs := (List.range 11).map fun r => some (rkAt s r)
    itemBlk := [], waiting := [] }

/-- Set-up (R199). -/
def tilerSetUp (s : State) : State := record [.scheduleWrite s.rk] { s with tiler := some (newTiler s) }

/-- `DevRead` of a buffer (20_memory.md R60). An entry that holds no value gives a free value (93 U9, log 11);
no run of `GPUDISP` reads one (R207). -/
def devRead (buf : List (Option Block)) (i : Nat) : Block :=
  match buf[i]? with
  | some (some v) => v
  | _ => Config.unwrittenBlock i

/-- `DevWrite` of a buffer (20_memory.md R60). -/
def devWrite (buf : List (Option Block)) (i : Nat) (v : Block) : List (Option Block) := buf.set i (some v)

/-- A step of the tiler, when there is one. -/
def onTiler (f : Tiler → State → State) (s : State) : State :=
  match s.tiler with
  | none => s
  | some q => f q s

/-- `CNT <- min(TILE, N - OFFSET)` (R201). -/
def startTile (s : State) : State :=
  onTiler (fun q s => { s with tiler := some { q with cnt := min q.tile (numBlocks s - q.offset) } }) s

/-- One block move of R201: `DevWrite(DEV_IN, i, MemRead(IN_BASE + 16*(OFFSET + i), 16))`. -/
def loadBlock (i : Nat) (s : State) : State :=
  onTiler (fun q s =>
    let x := s.mem.readBlock (inAddr s (q.offset + i))
    record [.devWrite .tiler .devIn i x, .memRead .tiler (inAddr s (q.offset + i)) x]
      { s with tiler := some { q with devIn := devWrite q.devIn i x } }) s

/-- The host-to-device write of a tile (R201). -/
def loadTile (s : State) : State := onTiler (fun q s => forUpTo loadBlock q.cnt s) s

/-- `ARG_OFFSET <- OFFSET` (R202). -/
def setArgOffset (s : State) : State :=
  onTiler (fun q s => { s with tiler := some { q with argOffset := q.offset } }) s

/-- The launch over `TILE` work-items (R203), each with a block register of its own (10_state.md R33). -/
def launchKernel (s : State) : State :=
  onTiler (fun q s =>
    record [.launch q.argOffset q.tile]
      { s with
        tiler := some { q with itemBlk := List.replicate q.tile none, waiting := List.range q.tile } }) s

/-- The counter of the block with global index `g` in a `GPUDISP`: the base is the all-zero block, `CTR` is not
read (R203, R209). -/
def gpuCounter (c : Bool) (s : State) (g : Nat) : Option Block :=
  if c then some (counterOf s.params 0#128 g) else none

/-- `WorkItem(i)` (R203); it then waits no more. -/
def workItem (c : Bool) (i : Nat) (s : State) : State :=
  onTiler (fun q s =>
    let x := devRead q.devIn i
    let y := encryptBlock x (devRead q.devKs) (gpuCounter c s (q.argOffset + i))
    record [.devWrite (.workItem q.tiles i) .devOut i y, .devRead (.workItem q.tiles i) .devIn i x]
      { s with
        tiler := some
          { q with
            devOut := devWrite q.devOut i y
            itemBlk := q.itemBlk.set i (some y)
            waiting := q.waiting.erase i } }) s

/-- The work-items that may step. -/
def waitingItems (s : State) : List Nat :=
  match s.tiler with
  | none => []
  | some q => q.waiting

/-- At most `n` work-item steps, each by a work-item that `sched` picks (R203). -/
def runItems (c : Bool) : Nat → State → State
  | 0, s => s
  | n + 1, s =>
    match pick s.sched (waitingItems s) with
    | none => s
    | some i => runItems c n (workItem c i { s with sched := s.sched.tail })

/-- The kernel from its launch to the wait (R203, R204). -/
def runKernel (c : Bool) (s : State) : State :=
  onTiler (fun q s => record [.wait] (runItems c q.tile s)) (launchKernel s)

/-- One block move of R205: `MemWrite(OUT_BASE + 16*(OFFSET + i), 16, DevRead(DEV_OUT, i))`. -/
def readBackBlock (i : Nat) (s : State) : State :=
  onTiler (fun q s =>
    let y := devRead q.devOut i
    record [.memWrite .tiler (outAddr s (q.offset + i)) y, .devRead .tiler .devOut i y]
      { s with mem := s.mem.writeBlock (outAddr s (q.offset + i)) y }) s

/-- The device-to-host read of a tile (R205). -/
def readBack (s : State) : State := onTiler (fun q s => forUpTo readBackBlock q.cnt s) s

/-- `OFFSET <- OFFSET + CNT; TILES <- TILES + 1` (R205). -/
def advanceTile (s : State) : State :=
  onTiler (fun q s =>
    { s with tiler := some { q with offset := q.offset + q.cnt, tiles := q.tiles + 1 } }) s

/-- One tile, steps R201 to R205 in order (R200). -/
def oneTile (c : Bool) (s : State) : State :=
  advanceTile (readBack (runKernel c (setArgOffset (loadTile (startTile s)))))

/-- Whether `OFFSET < N` (R196 step 3). -/
def tilesLeft (s : State) : Bool :=
  match s.tiler with
  | none => false
  | some q => decide (q.offset < numBlocks s)

/-- At most `n` tiles, while `OFFSET < N` (R196 step 3, R206). -/
def runTiles (c : Bool) : Nat → State → State
  | 0, s => s
  | n + 1, s => if tilesLeft s then runTiles c n (oneTile c s) else s

/-- The finish (R206): the progress registers, and the device buffers are released. -/
def tilerFinish (s : State) : State :=
  onTiler (fun q s =>
    { s with
      gpuOffset := BitVec.ofNat 64 q.offset
      gpuTile := BitVec.ofNat 64 q.tile
      gpuTiles := BitVec.ofNat 64 q.tiles
      tiler := none }) s

/-- `GPUDISP` after its checks (R196): set-up, tiles, finish; `N` tiles are always enough, since each moves at
least one block (R206). -/
def gpuRun (c : Bool) (s : State) : State := tilerFinish (runTiles c (numBlocks s) (tilerSetUp s))

/-- `GPUDISP` (R196). -/
def execGpudisp (c : Bool) (s : State) : Host.Outcome State Fault Refusal :=
  command (checkAll gpuTests fun s => respondZero (gpuRun c s)) s

end Sys2Proof.Machine
end

