-- ==== Sys2Proof/Machine/KeySchedule.lean ====
section
/-! DEFINITION. The key schedule commands: the table-driven path (spec/41_key_schedule_table.md R109 to R113),
the hardware-assisted path and the inverse schedule (spec/42_key_schedule_assisted.md R124 to R127). -/

namespace Sys2Proof.Machine

/-- `LDKEY` (R109): a new key discards both schedules. -/
def execLdkey (s : State) : Host.Outcome State Fault Refusal :=
  command (fun s => respondZero { s with regKey := s.wdata, keyV := true, rkv := 0#11, ikV := false }) s

/-- `KSEED` (R110). -/
def execKseed (s : State) : Host.Outcome State Fault Refusal :=
  command (require (fun s => s.keyV) fun s => respondZero (writeRk 0 s.regKey s)) s

/-- A step command: round key `r` from round key `r - 1` (R111, R124). -/
def stepSchedule (next : Block → Nat → Block) (r : Nat) (s : State) : State :=
  legal (stepIndexOk r)
    (require (fun s => rkValid s (r - 1)) fun s => respondZero (writeRk r (next (rkAt s (r - 1)) r) s)) s

/-- `KSTEPT r` (R111). -/
def execKstept (r : Nat) (s : State) : Host.Outcome State Fault Refusal :=
  command (stepSchedule nextRoundKeyT r) s

/-- `KASSIST r` (R124). -/
def execKassist (r : Nat) (s : State) : Host.Outcome State Fault Refusal :=
  command (stepSchedule nextRoundKeyV r) s

/-- A whole-schedule command (R112, R125). -/
def expandSchedule (next : Block → Nat → Block) (s : State) : State :=
  require (fun s => s.keyV) (fun s => respondZero (writeSchedule (schedule (roundKeyBy next s.regKey)) s)) s

/-- `KEXPT` (R112). -/
def execKexpt (s : State) : Host.Outcome State Fault Refusal := command (expandSchedule nextRoundKeyT) s

/-- `KEXPV` (R125). -/
def execKexpv (s : State) : Host.Outcome State Fault Refusal := command (expandSchedule nextRoundKeyV) s

/-- `KINV` (R126): `RK` is not changed. -/
def execKinv (s : State) : Host.Outcome State Fault Refusal :=
  command
    (require ksValid fun s =>
      respondZero { s with ik := schedule (inverseRoundKey (rkAt s)), ikV := true }) s

/-- `RDRK r` (R113). -/
def execRdrk (r : Nat) (s : State) : Host.Outcome State Fault Refusal :=
  command (legal (roundIndexOk r) (require (fun s => rkValid s r) fun s => respond (rkAt s r) s)) s

/-- `RDIK r` (R127). -/
def execRdik (r : Nat) (s : State) : Host.Outcome State Fault Refusal :=
  command (legal (roundIndexOk r) (require (fun s => s.ikV) fun s => respond (ikAt s r) s)) s

end Sys2Proof.Machine
end

