-- ==== Sys2Proof/Machine/Partitioner.lean ====
section
/-! DEFINITION. The parallel block partitioner (spec/45_parallel_partitioner.md R175 to R189).

The lanes are agents of their own (R181, R182). One step of the machine runs a `PARENC` from its checks to its
join, lane step by lane step, in the order `State.sched` picks (logs 8 and 9): the host has no move in between
(20_memory.md R67). -/

namespace Sys2Proof.Machine

/-- The blocks of one lane, `per = N / T` (R177). -/
def perLane (s : State) : Nat := numBlocks s / s.threads.toNat

/-- The tests of R178, in its order. -/
def parencTests (c : Bool) (s : State) : List (Bool × ErrCode) :=
  [ (ksValid s, .uninit),
    (ctrOk c s, .uninit),
    (decide (1 ≤ numBlocks s), .badSize),
    (decide (1 ≤ s.threads.toNat ∧ s.threads.toNat ≤ s.params.lanes), .badThreads),
    (decide (numBlocks s % s.threads.toNat = 0), .notDivisible),
    (decide (perLane s % s.params.clb = 0), .notDivisible),
    (buffersInRange s, .range),
    (decide (s.inBase.toNat % (16 * s.params.clb) = 0), .misaligned),
    (decide (s.outBase.toNat % (16 * s.params.clb) = 0), .misaligned),
    (buffersApart s, .overlap),
    (s.params.laneOk, .thread) ]

/-- Lane `t` at its creation (R180). -/
def newLane (per t : Nat) : Lane := { start := t * per, count := per, next := 0, blk := none }

/-- The creation of the `T` lanes (R180). -/
def createLanes (s : State) : State :=
  { s with lanes := (List.range s.threads.toNat).map (newLane (perLane s)) }

/-- The cipher of the lanes: `v = 0` through the tables, `v = 1` through the fused rounds (R181). -/
def laneCipher (v : Bool) : Block → (Nat → Block) → Option Block → Block :=
  if v then encryptV else encryptT

/-- The counter of the block with global index `g` in a `PARENC` (R181). -/
def parencCounter (c : Bool) (s : State) (g : Nat) : Option Block :=
  if c then some (counterOf s.params s.regCtr g) else none

/-- What lane `t`, being `l`, does to its next block `g` (R181). -/
def laneBlock (c v : Bool) (t : Nat) (l : Lane) (g : Nat) (s : State) : State :=
  let x := s.mem.readBlock (inAddr s g)
  let y := laneCipher v x (rkAt s) (parencCounter c s g)
  record [.memWrite (.lane t) (outAddr s g) y, .memRead (.lane t) (inAddr s g) x]
    { s with
      mem := s.mem.writeBlock (outAddr s g) y
      lanes := s.lanes.set t { l with next := l.next + 1, blk := some y } }

/-- `LaneStep(t)` (R181); it is enabled when `next < count`, and a lane that is not enabled does nothing. -/
def laneStep (c v : Bool) (t : Nat) (s : State) : State :=
  match s.lanes[t]? with
  | none => s
  | some l => if l.next < l.count then laneBlock c v t l (l.start + l.next) s else s

/-- Whether lane `t` may step (R181). -/
def laneEnabled (s : State) (t : Nat) : Bool :=
  match s.lanes[t]? with
  | none => false
  | some l => decide (l.next < l.count)

/-- The lanes that may step, lowest number first (R182). -/
def enabledLanes (s : State) : List Nat := (List.range s.lanes.length).filter (laneEnabled s)

/-- At most `n` lane steps, each by an enabled lane that `sched` picks (R182). -/
def runLanes (c v : Bool) : Nat → State → State
  | 0, s => s
  | n + 1, s =>
    match pick s.sched (enabledLanes s) with
    | none => s
    | some t => runLanes c v n (laneStep c v t { s with sched := s.sched.tail })

/-- The join (R183): the lane state is discarded. -/
def joinLanes (s : State) : State := record [.join] { s with lanes := [] }

/-- `PARENC` after its checks (R176): creation, the `N` lane steps (R182), join. -/
def parencRun (c v : Bool) (s : State) : State := joinLanes (runLanes c v (numBlocks s) (createLanes s))

/-- `PARENC` (R176). -/
def execParenc (c v : Bool) (s : State) : Host.Outcome State Fault Refusal :=
  command (checkAll (parencTests c) fun s => respondZero (parencRun c v s)) s

end Sys2Proof.Machine
end

