-- ==== Sys2Proof/Machine/Round.lean ====
section
/-! DEFINITION. The round primitives and the fused rounds (spec/43_round_primitives.md R143 to R154). -/

namespace Sys2Proof.Machine

/-- `SUBB` (R143). -/
def execSubb (s : State) : Host.Outcome State Fault Refusal := command (transformS fun _ => subBytes) s

/-- `SHROW` (R144). -/
def execShrow (s : State) : Host.Outcome State Fault Refusal := command (transformS fun _ => shiftRows) s

/-- `MIXCOL` (R145): through `MUL2` and `MUL3`. -/
def execMixcol (s : State) : Host.Outcome State Fault Refusal := command (transformS fun _ => mixColumnsT) s

/-- `ISUBB` (R147). -/
def execIsubb (s : State) : Host.Outcome State Fault Refusal := command (transformS fun _ => invSubBytes) s

/-- `ISHROW` (R148). -/
def execIshrow (s : State) : Host.Outcome State Fault Refusal := command (transformS fun _ => invShiftRows) s

/-- `IMIXCOL` (R149): through `Multiply`. -/
def execImixcol (s : State) : Host.Outcome State Fault Refusal := command (transformS fun _ => invMixColumns) s

/-- `XCTR` (R150): `require S_V; require CTR_V; S <- S xor CTR`. -/
def execXctr (s : State) : Host.Outcome State Fault Refusal :=
  command
    (require (fun s => s.sV)
      (require (fun s => s.ctrV) fun s => respondZero { s with regS := s.regS ^^^ s.regCtr })) s

/-- A round command over the forward schedule: `require S_V; require RKV[r]; S <- f(RK[r], S)` (R146, R151,
R152). -/
def forwardRound (f : Block → Block → Block) (r : Nat) (s : State) : State :=
  legal (roundIndexOk r)
    (require (fun s => s.sV)
      (require (fun s => rkValid s r) fun s => respondZero { s with regS := f (rkAt s r) s.regS })) s

/-- A round command over the inverse schedule: `require S_V; require IK_V; S <- f(IK[r], S)` (R153, R154). -/
def inverseRound (f : Block → Block → Block) (r : Nat) (s : State) : State :=
  legal (roundIndexOk r)
    (require (fun s => s.sV)
      (require (fun s => s.ikV) fun s => respondZero { s with regS := f (ikAt s r) s.regS })) s

/-- `ADDRK r` (R146). -/
def execAddrk (r : Nat) (s : State) : Host.Outcome State Fault Refusal :=
  command (forwardRound (fun k s => addRoundKey s k) r) s

/-- `VENC r` (R151). -/
def execVenc (r : Nat) (s : State) : Host.Outcome State Fault Refusal :=
  command (forwardRound (encRound mixColumns) r) s

/-- `VENCLAST r` (R152). -/
def execVenclast (r : Nat) (s : State) : Host.Outcome State Fault Refusal :=
  command (forwardRound encLastRound r) s

/-- `VDEC r` (R153). -/
def execVdec (r : Nat) (s : State) : Host.Outcome State Fault Refusal :=
  command (inverseRound decRound r) s

/-- `VDECLAST r` (R154). -/
def execVdeclast (r : Nat) (s : State) : Host.Outcome State Fault Refusal :=
  command (inverseRound decLastRound r) s

end Sys2Proof.Machine
end

