-- ==== Sys2Proof/Machine/System.lean ====
section
/-! DEFINITION. The system and configuration commands (spec/47_host_commands.md R215 to R219). -/

namespace Sys2Proof.Machine

/-- `NOP` (R215). -/
def execNop (s : State) : Host.Outcome State Fault Refusal := command respondZero s

/-- `RDSTAT` (R216): runs in the fatal state too. -/
def execRdstat (s : State) : Host.Outcome State Fault Refusal :=
  commandAlways (fun s => respond (statusWord s) s) s

/-- `SRESET` (R217): runs in the fatal state too. -/
def execSreset (s : State) : Host.Outcome State Fault Refusal :=
  commandAlways (fun s => respondZero (resetCore s)) s

/-- `WRCFG sel` (R218): `config[sel] <- WDATA[63:0]`; no value is rejected. -/
def execWrcfg (sel : CfgReg) (s : State) : Host.Outcome State Fault Refusal :=
  command (legal sel.writable fun s => respondZero (writeCfg sel (wdataLow s) s)) s

/-- `RDCFG sel` (R219). -/
def execRdcfg (sel : CfgReg) (s : State) : Host.Outcome State Fault Refusal :=
  command (fun s => respond (zextWord64 (readCfg s sel)) s) s

end Sys2Proof.Machine
end

