-- ==== Sys2Proof/Machine/Dispatch.lean ====
section
/-! DEFINITION. The dispatch: one arm for each command. -/

namespace Sys2Proof.Machine

def exec (i : Instr) (s : State) : Host.Outcome State Fault Refusal :=
  match i with
  | .nop => Sys2Proof.Machine.execNop s
  | .rdstat => Sys2Proof.Machine.execRdstat s
  | .wrcfg sel => Sys2Proof.Machine.execWrcfg sel s
  | .rdcfg sel => Sys2Proof.Machine.execRdcfg sel s
  | .sreset => Sys2Proof.Machine.execSreset s
  | .gfmul a b => Sys2Proof.Machine.execGfmul a b s
  | .gfmul2 a => Sys2Proof.Machine.execGfmul2 a s
  | .gfmul3 a => Sys2Proof.Machine.execGfmul3 a s
  | .ldkey => Sys2Proof.Machine.execLdkey s
  | .kseed => Sys2Proof.Machine.execKseed s
  | .kstept r => Sys2Proof.Machine.execKstept r s
  | .kexpt => Sys2Proof.Machine.execKexpt s
  | .kassist r => Sys2Proof.Machine.execKassist r s
  | .kexpv => Sys2Proof.Machine.execKexpv s
  | .kinv => Sys2Proof.Machine.execKinv s
  | .rdrk r => Sys2Proof.Machine.execRdrk r s
  | .rdik r => Sys2Proof.Machine.execRdik r s
  | .lds => Sys2Proof.Machine.execLds s
  | .rds => Sys2Proof.Machine.execRds s
  | .ldctr => Sys2Proof.Machine.execLdctr s
  | .ldblk idx => Sys2Proof.Machine.execLdblk idx s
  | .stblk idx => Sys2Proof.Machine.execStblk idx s
  | .subb => Sys2Proof.Machine.execSubb s
  | .shrow => Sys2Proof.Machine.execShrow s
  | .mixcol => Sys2Proof.Machine.execMixcol s
  | .addrk r => Sys2Proof.Machine.execAddrk r s
  | .isubb => Sys2Proof.Machine.execIsubb s
  | .ishrow => Sys2Proof.Machine.execIshrow s
  | .imixcol => Sys2Proof.Machine.execImixcol s
  | .xctr => Sys2Proof.Machine.execXctr s
  | .venc r => Sys2Proof.Machine.execVenc r s
  | .venclast r => Sys2Proof.Machine.execVenclast r s
  | .vdec r => Sys2Proof.Machine.execVdec r s
  | .vdeclast r => Sys2Proof.Machine.execVdeclast r s
  | .enct c => Sys2Proof.Machine.execEnct c s
  | .encv c => Sys2Proof.Machine.execEncv c s
  | .decv c => Sys2Proof.Machine.execDecv c s
  | .parenc c v => Sys2Proof.Machine.execParenc c v s
  | .gpudisp c => Sys2Proof.Machine.execGpudisp c s

end Sys2Proof.Machine
end

