-- ==== Sys2Proof/Machine/Port.lean ====
section
/-! DEFINITION. The command port (spec/10_state.md R41, spec/30_encoding.md R75, R88): how the core takes the
host's next move. -/

namespace Sys2Proof.Machine

/-- An illegal command word: `E_ILLEGAL_CMD` (30_encoding.md R83), unless the fatal state refuses it
(60_exceptions.md R241, R243). -/
def illegalCommand (s : State) : Host.Outcome State Fault Refusal := command (raiseFault .illegalCmd) s

/-- A command word at the port: decoded, then executed (R88, R243). -/
def issue (cmd : CmdWord) (s : State) : Host.Outcome State Fault Refusal :=
  match decode cmd with
  | .ok i => exec i s
  | .error _ => illegalCommand s

/-- The state in which the command with operand `wdata` is at the port and `rest` is what the host does after
it (R78). -/
def present (wdata : Block) (rest : List HostMove) (s : State) : State := { s with wdata := wdata, host := rest }

/-- The host's next move (00_scope.md R19). With no move the core waits (70_reset_and_hazards.md R260). -/
def takeMove (s : State) : Host.Outcome State Fault Refusal :=
  match s.host with
  | [] => .next s
  | .command cmd wdata :: rest => issue cmd (present wdata rest s)
  | .rst :: rest => .next (resetCore { s with host := rest })
  | .store addr b :: rest => .next { s with host := rest, mem := s.mem.write addr.toNat b }

/-- The state in which the host's next move is the command word `cmd`, with the operand the port already
holds. -/
def pushCommand (cmd : CmdWord) (s : State) : State := { s with host := .command cmd s.wdata :: s.host }

end Sys2Proof.Machine
end

