-- ==== Sys2Proof/Machine/Step.lean ====
section
/-! DEFINITION. The step of the machine. -/

namespace Sys2Proof.Machine

/-- One step: the host's next move (spec/00_scope.md R19). -/
def step (s : State) : Host.Outcome State Fault Refusal := takeMove s

/-- The state whose next step runs the command word `w` (logs 5 and 6). -/
def State.withFetchWord (s : State) (nbits w : Nat) : State :=
  pushCommand (BitVec.ofNat 32 (w % 2 ^ nbits)) s

end Sys2Proof.Machine
end

