-- ==== Sys2Proof/Safety.lean ====
section
/-! DEFINITION. The terms the statements use: which states are good, what a command leaves alone, what a
command word means by the spec's own list, and runs of several commands. -/

namespace Sys2Proof.Machine

/-! Good states. -/

/-- The core is not in the fatal state (spec/60_exceptions.md R241). -/
abbrev State.live (s : State) : Prop := s.fatal = false

/-- `RK[r]` of the key the core holds, by the recurrence of spec/41_key_schedule_table.md R112. -/
def derivedKey (s : State) (r : Nat) : Block := roundKeyBy nextRoundKeyT s.regKey r

/-- `RKV[r] = 1` implies that `RK[r]` is the r-th block of `KEXPT`'s result on `KEY`, which has been loaded
(spec/10_state.md R25). -/
def State.scheduleOfKey (s : State) : Prop :=
  ∀ r, r ≤ 10 → rkValid s r = true → s.keyV = true ∧ rkAt s r = derivedKey s r

/-- `IK_V = 1` implies that the whole schedule is valid and `IK` is its inverse variant (spec/10_state.md R26,
spec/42_key_schedule_assisted.md R126, spec/44_block_cipher.md R166). -/
def State.inverseOfSchedule (s : State) : Prop :=
  s.ikV = true → ksValid s = true ∧ ∀ r, r ≤ 10 → ikAt s r = inverseRoundKey (derivedKey s) r

/-- `ERRCODE` is 0 when `FATAL = 0`, and a code of the fault table when `FATAL = 1` (spec/60_exceptions.md
R236). -/
def State.errCodeMeansFatal (s : State) : Prop :=
  (s.fatal = false → s.errCode = 0x00#8) ∧ (s.fatal = true → ∃ e, s.errCode = errByte e)

/-- Lane state, tiler state and device buffers do not exist between commands (spec/10_state.md R32, R33, R42). -/
abbrev State.noBulkState (s : State) : Prop := s.lanes = [] ∧ s.tiler = none

/-- The invariant of the machine between commands. -/
structure State.Inv (s : State) : Prop where
  memory : s.mem.wf = true
  schedule : s.scheduleOfKey
  inverse : s.inverseOfSchedule
  errCode : s.errCodeMeansFatal
  bulk : s.noBulkState

/-! Frames: `t` is `s` in every field but those named. -/

/-- Only the response differs. -/
abbrev sameButResponse (s t : State) : Prop := t = { s with rsp := t.rsp, rdata := t.rdata }

/-- Only `S`, `S_V` and the response differ. -/
abbrev sameButS (s t : State) : Prop := t = { s with regS := t.regS, sV := t.sV, rsp := t.rsp, rdata := t.rdata }

/-- Only `RK`, `RKV` and the response differ. -/
abbrev sameButSchedule (s t : State) : Prop :=
  t = { s with rk := t.rk, rkv := t.rkv, rsp := t.rsp, rdata := t.rdata }

/-- Only `IK`, `IK_V` and the response differ. -/
abbrev sameButInverse (s t : State) : Prop :=
  t = { s with ik := t.ik, ikV := t.ikV, rsp := t.rsp, rdata := t.rdata }

/-- Only host memory and the response differ. -/
abbrev sameButMemory (s t : State) : Prop := t = { s with mem := t.mem, rsp := t.rsp, rdata := t.rdata }

/-- `S` becomes `v`, `RDATA` becomes `d`, the response is `OK`, and nothing else changes. -/
abbrev withS (v d : Block) (s : State) : State := { s with regS := v, rsp := .ok, rdata := d }

/-- Only host memory, the response and the model's own `sched` and `history` differ: what a `PARENC` may
change (spec/45_parallel_partitioner.md R176). -/
abbrev sameButParenc (s t : State) : Prop :=
  t = { s with mem := t.mem, rsp := t.rsp, rdata := t.rdata, sched := t.sched, history := t.history }

/-- As `sameButParenc`, and the three progress registers: what a `GPUDISP` may change
(spec/46_gpu_batch_tiler.md R196). -/
abbrev sameButGpudisp (s t : State) : Prop :=
  t = { s with mem := t.mem, rsp := t.rsp, rdata := t.rdata, sched := t.sched, history := t.history,
               gpuOffset := t.gpuOffset, gpuTile := t.gpuTile, gpuTiles := t.gpuTiles }

/-- The state after a fault with code `code`: `FATAL`, `ERRCODE` and the response, nothing else
(spec/60_exceptions.md R240). -/
abbrev faulted (code : Byte) (s : State) : State :=
  { s with fatal := true, errCode := code, rsp := .fault, rdata := code.setWidth 128 }

/-- The command runs, responds `OK` with `RDATA = v` and changes nothing else. -/
abbrev respondsOnly (i : Instr) (v : Block) (s : State) : Prop := exec i s = .next { s with rsp := .ok, rdata := v }

/-- The command raises the fault with code `code`: only `FATAL`, `ERRCODE` and the response change. -/
abbrev faultsWith (i : Instr) (code : Byte) (s : State) : Prop := exec i s = .next (faulted code s)

/-- The table of spec/10_state.md R42, but for the contents R42 gives no value. -/
def State.hasResetValues (s : State) : Prop :=
  s.sV = false ∧ s.keyV = false ∧ s.ctrV = false ∧ s.rkv = 0#11 ∧ s.ikV = false ∧ s.fatal = false ∧
  s.errCode = 0x00#8 ∧ s.nBlocks = 0#64 ∧ s.threads = 0#64 ∧ s.inBase = 0#64 ∧ s.outBase = 0#64 ∧
  s.gpuOffset = 0#64 ∧ s.gpuTile = 0#64 ∧ s.gpuTiles = 0#64 ∧ s.noBulkState

/-! Command words by the spec's own list (spec/30_encoding.md R76, R79, R83 to R86). -/

/-- The unassigned opcodes, range by range (R84). -/
def unassignedOpcode (op : Nat) : Prop :=
  (0x05 ≤ op ∧ op ≤ 0x0F) ∨ (0x13 ≤ op ∧ op ≤ 0x1F) ∨ (0x29 ≤ op ∧ op ≤ 0x2F) ∨ (0x35 ≤ op ∧ op ≤ 0x3F) ∨
  (0x4C ≤ op ∧ op ≤ 0x4F) ∨ (0x53 ≤ op ∧ op ≤ 0x5F) ∨ (0x61 ≤ op ∧ op ≤ 0x6F) ∨ (0x71 ≤ op ∧ op ≤ 0xFF)

/-- The opcodes of format Z (R79). -/
def opcodesZ : List Nat :=
  [0x00, 0x01, 0x04, 0x20, 0x21, 0x23, 0x25, 0x26, 0x30, 0x31, 0x32, 0x40, 0x41, 0x42, 0x44, 0x45, 0x46, 0x47]

/-- The opcodes of format R (R79). -/
def opcodesR : List Nat := [0x22, 0x24, 0x27, 0x28, 0x43, 0x48, 0x49, 0x4A, 0x4B]

/-- The numbers of the configuration registers (R86). -/
def selectors : List Nat := [0x00, 0x01, 0x02, 0x03, 0x10, 0x11, 0x12, 0x13, 0x20, 0x21, 0x22]

/-- A command word is illegal, clause by clause of R83; `op = CMD[31:24]`, `x = CMD[23:0]`. -/
def illegalFields (op x : Nat) : Prop :=
  unassignedOpcode op ∨
  (op ∈ opcodesZ ∧ x ≠ 0) ∨
  (op ∈ opcodesR ∧ (16 ≤ x ∨ 10 < x % 16)) ∨
  ((op = 0x22 ∨ op = 0x24) ∧ x % 16 = 0) ∨
  (op = 0x10 ∧ 0x10000 ≤ x) ∨
  ((op = 0x11 ∨ op = 0x12 ∨ op = 0x02 ∨ op = 0x03) ∧ 0x100 ≤ x) ∨
  ((op = 0x50 ∨ op = 0x51 ∨ op = 0x52 ∨ op = 0x60 ∨ op = 0x70) ∧ 4 ≤ x) ∨
  ((op = 0x50 ∨ op = 0x51 ∨ op = 0x52 ∨ op = 0x70) ∧ x / 2 % 2 = 1) ∨
  (op = 0x02 ∧ 4 ≤ x % 256) ∨
  (op = 0x03 ∧ x % 256 ∉ selectors)

/-- A command word is illegal (R83). -/
def illegalWord (w : CmdWord) : Prop := illegalFields (w.toNat / 2 ^ 24) (w.toNat % 2 ^ 24)

/-- A word with opcode `op` whose operand field is one of `bad` raises `E_ILLEGAL_CMD`, and changes nothing
else. -/
abbrev illegalOperands (op : Byte) (bad : Nat → Prop) (s : State) : Prop :=
  ∀ x : BitVec 24, bad x.toNat → issue (op ++ x) s = .next (faulted 0x01#8 s)

/-- The core's next move is the command word `cmd` with operand `w`; `rest` is what the host does after it. -/
abbrev atPort (cmd : CmdWord) (w : Block) (rest : List HostMove) (s : State) : Prop :=
  s.host = .command cmd w :: rest

/-! The key schedule, byte by byte. -/

/-- `q` is the round key after `p` in round `r`, in bytes: the first four bytes are those of `p` XOR the
substituted, rotated last four of `p`, with `RCON[r]` in byte 0 (spec/41_key_schedule_table.md R106 to R108);
each later byte is that of `p` XOR the byte of `q` four places before. -/
def isNextRoundKey (r : Nat) (p q : Block) : Prop :=
  byteAt q 0 = byteAt p 0 ^^^ sbox (byteAt p 13) ^^^ rcon r ∧
  byteAt q 1 = byteAt p 1 ^^^ sbox (byteAt p 14) ∧
  byteAt q 2 = byteAt p 2 ^^^ sbox (byteAt p 15) ∧
  byteAt q 3 = byteAt p 3 ^^^ sbox (byteAt p 12) ∧
  ∀ k, 4 ≤ k → k < 16 → byteAt q k = byteAt p k ^^^ byteAt q (k - 4)

/-- Schedule word `W[i]`, `i = 0 .. 43` (spec/10_state.md R24). -/
def scheduleWord (s : State) (i : Nat) : Word32 := wordAt (rkAt s (i / 4)) (i % 4)

/-! When the bulk commands run to their end. -/

/-- The two buffers end at or below the top of the address space (spec/20_memory.md R55). -/
abbrev buffersFit (s : State) : Prop :=
  s.inBase.toNat + 16 * s.nBlocks.toNat ≤ 2 ^ 64 ∧ s.outBase.toNat + 16 * s.nBlocks.toNat ≤ 2 ^ 64

/-- The two buffers are different and share a byte (spec/20_memory.md R61). -/
abbrev buffersOverlap (s : State) : Prop :=
  s.outBase ≠ s.inBase ∧ s.inBase.toNat < s.outBase.toNat + 16 * s.nBlocks.toNat ∧
    s.outBase.toNat < s.inBase.toNat + 16 * s.nBlocks.toNat

/-- The eleven tests of spec/45_parallel_partitioner.md R178 hold. -/
structure ParencAllowed (c : Bool) (s : State) : Prop where
  schedule : s.rkv = 0x7FF#11
  counter : c = true → s.ctrV = true
  size : 1 ≤ s.nBlocks.toNat
  threads : 1 ≤ s.threads.toNat ∧ s.threads.toNat ≤ s.params.lanes
  divisible : s.nBlocks.toNat % s.threads.toNat = 0
  slice : s.nBlocks.toNat / s.threads.toNat % s.params.clb = 0
  fit : buffersFit s
  inAligned : s.inBase.toNat % (16 * s.params.clb) = 0
  outAligned : s.outBase.toNat % (16 * s.params.clb) = 0
  apart : ¬ buffersOverlap s
  lanes : s.params.laneOk = true

/-- The seven tests of spec/46_gpu_batch_tiler.md R197 hold. -/
structure GpudispAllowed (s : State) : Prop where
  schedule : s.rkv = 0x7FF#11
  size : 1 ≤ s.nBlocks.toNat
  fit : buffersFit s
  apart : ¬ buffersOverlap s
  device : s.params.devPresent = true
  kernel : s.params.kernelOk = true
  ceiling : 1 ≤ s.params.devCeil

/-- Every output block is its input block encrypted with its counter, and no byte outside the output buffer
has changed (spec/45_parallel_partitioner.md R185, spec/46_gpu_batch_tiler.md R208). -/
structure EncryptsBuffer (x : Nat → Option Block) (s t : State) : Prop where
  blocks : ∀ g, g < s.nBlocks.toNat →
    t.mem.readBlock (outAddr s g) = encryptBlock (s.mem.readBlock (inAddr s g)) (rkAt s) (x g)
  others : ∀ a, a < s.outBase.toNat ∨ s.outBase.toNat + 16 * s.nBlocks.toNat ≤ a → t.mem.read a = s.mem.read a

/-! Runs of several commands. -/

/-- Commands issued one after the other, each after the response to the one before (spec/47_host_commands.md
R228), none of which takes `WDATA`. -/
def runCommands : List Instr → State → Host.Outcome State Fault Refusal
  | [], s => .next s
  | i :: rest, s =>
    match exec i s with
    | .next t => runCommands rest t
    | .fault r => .fault r
    | .refused r => .refused r

/-- The middle rounds of `ENC.STEPS`, `r = 1 .. 9` (spec/30_encoding.md R90). -/
def encStepsMiddle (r : Nat) : List Instr := [.subb, .shrow, .mixcol, .addrk r]

/-- The pseudo-instruction `ENC.STEPS`, 40 commands (spec/30_encoding.md R90). -/
def encSteps : List Instr :=
  [.addrk 0] ++ encStepsMiddle 1 ++ encStepsMiddle 2 ++ encStepsMiddle 3 ++ encStepsMiddle 4 ++ encStepsMiddle 5
    ++ encStepsMiddle 6 ++ encStepsMiddle 7 ++ encStepsMiddle 8 ++ encStepsMiddle 9 ++ [.subb, .shrow, .addrk 10]

/-- The pseudo-instruction `ENC.ROUNDS`, 11 commands (spec/30_encoding.md R90). -/
def encRounds : List Instr :=
  [.addrk 0, .venc 1, .venc 2, .venc 3, .venc 4, .venc 5, .venc 6, .venc 7, .venc 8, .venc 9, .venclast 10]

/-- The pseudo-instruction `DEC.ROUNDS`, 11 commands (spec/30_encoding.md R90). -/
def decRounds : List Instr :=
  [.addrk 10, .vdec 9, .vdec 8, .vdec 7, .vdec 6, .vdec 5, .vdec 4, .vdec 3, .vdec 2, .vdec 1, .vdeclast 0]

/-- The counter of block `g` in a bulk command with counter base `base`: absent when `c = 0`
(spec/45_parallel_partitioner.md R185, spec/46_gpu_batch_tiler.md R208). -/
def bulkCounter (c : Bool) (s : State) (base : Block) (g : Nat) : Option Block :=
  if c then some (counterOf s.params base g) else none

/-- Block `g` belongs to the slice of lane `k` (spec/45_parallel_partitioner.md R177). -/
abbrev inSlice (s : State) (k g : Nat) : Prop :=
  k < s.threads.toNat ∧ k * (s.nBlocks.toNat / s.threads.toNat) ≤ g ∧
    g < (k + 1) * (s.nBlocks.toNat / s.threads.toNat)

/-- An event is the write of the schedule to the device. -/
def Event.isScheduleWrite : Event → Bool
  | .scheduleWrite _ => true
  | .memRead _ _ _ | .memWrite _ _ _ | .devRead _ _ _ _ | .devWrite _ _ _ _ | .launch _ _ | .wait | .join => false

/-- An event is a read of host memory. -/
def Event.isMemRead : Event → Bool
  | .memRead _ _ _ => true
  | .scheduleWrite _ | .memWrite _ _ _ | .devRead _ _ _ _ | .devWrite _ _ _ _ | .launch _ _ | .wait | .join => false

/-- An event is a write of host memory. -/
def Event.isMemWrite : Event → Bool
  | .memWrite _ _ _ => true
  | .scheduleWrite _ | .memRead _ _ _ | .devRead _ _ _ _ | .devWrite _ _ _ _ | .launch _ _ | .wait | .join => false

end Sys2Proof.Machine

namespace Sys2Proof

/-! What the spec's tables say of each command. -/

/-- The commands that `respond` with a defined `RDATA` (spec/30_encoding.md R81). -/
def Instr.responds : Instr → Bool
  | .rdstat | .rdcfg _ | .gfmul _ _ | .gfmul2 _ | .gfmul3 _ | .rdrk _ | .rdik _ | .rds | .enct _ | .encv _
  | .decv _ => true
  | .nop | .wrcfg _ | .sreset | .ldkey | .kseed | .kstept _ | .kexpt | .kassist _ | .kexpv | .kinv | .lds | .ldctr
  | .ldblk _ | .stblk _ | .subb | .shrow | .mixcol | .addrk _ | .isubb | .ishrow | .imixcol | .xctr | .venc _
  | .venclast _ | .vdec _ | .vdeclast _ | .parenc _ _ | .gpudisp _ => false

/-- The commands that take `WDATA` (spec/30_encoding.md R81). -/
def Instr.takesWdata : Instr → Bool
  | .ldkey | .lds | .ldctr | .wrcfg _ => true
  | .nop | .rdstat | .rdcfg _ | .sreset | .gfmul _ _ | .gfmul2 _ | .gfmul3 _ | .kseed | .kstept _ | .kexpt
  | .kassist _ | .kexpv | .kinv | .rdrk _ | .rdik _ | .rds | .ldblk _ | .stblk _ | .subb | .shrow | .mixcol
  | .addrk _ | .isubb | .ishrow | .imixcol | .xctr | .venc _ | .venclast _ | .vdec _ | .vdeclast _ | .enct _
  | .encv _ | .decv _ | .parenc _ _ | .gpudisp _ => false

/-- The commands that write `S` (spec/10_state.md R23). -/
def Instr.writesS : Instr → Bool
  | .lds | .ldblk _ | .subb | .shrow | .mixcol | .addrk _ | .isubb | .ishrow | .imixcol | .xctr | .venc _
  | .venclast _ | .vdec _ | .vdeclast _ | .enct _ | .encv _ | .decv _ => true
  | .nop | .rdstat | .wrcfg _ | .rdcfg _ | .sreset | .gfmul _ _ | .gfmul2 _ | .gfmul3 _ | .ldkey | .kseed
  | .kstept _ | .kexpt | .kassist _ | .kexpv | .kinv | .rdrk _ | .rdik _ | .rds | .ldctr | .stblk _ | .parenc _ _
  | .gpudisp _ => false

/-- The commands that write `RK` (spec/10_state.md R25). -/
def Instr.derivesSchedule : Instr → Bool
  | .kseed | .kstept _ | .kexpt | .kassist _ | .kexpv => true
  | .nop | .rdstat | .wrcfg _ | .rdcfg _ | .sreset | .gfmul _ _ | .gfmul2 _ | .gfmul3 _ | .ldkey | .kinv | .rdrk _
  | .rdik _ | .lds | .rds | .ldctr | .ldblk _ | .stblk _ | .subb | .shrow | .mixcol | .addrk _ | .isubb | .ishrow
  | .imixcol | .xctr | .venc _ | .venclast _ | .vdec _ | .vdeclast _ | .enct _ | .encv _ | .decv _ | .parenc _ _
  | .gpudisp _ => false

/-- The commands that write host memory (spec/20_memory.md R50). -/
def Instr.writesMemory : Instr → Bool
  | .stblk _ | .parenc _ _ | .gpudisp _ => true
  | .nop | .rdstat | .wrcfg _ | .rdcfg _ | .sreset | .gfmul _ _ | .gfmul2 _ | .gfmul3 _ | .ldkey | .kseed
  | .kstept _ | .kexpt | .kassist _ | .kexpv | .kinv | .rdrk _ | .rdik _ | .lds | .rds | .ldctr | .ldblk _ | .subb
  | .shrow | .mixcol | .addrk _ | .isubb | .ishrow | .imixcol | .xctr | .venc _ | .venclast _ | .vdec _
  | .vdeclast _ | .enct _ | .encv _ | .decv _ => false

end Sys2Proof
end

