-- ==== Sys2Proof/Certificates/Slice0/Obligations.lean ====
section
/-! DEFINITION. The statements about the model, each from a numbered rule of spec/ or derived from one. A
statement whose docstring names a log entry rests on a choice of the model, not on a rule. -/

open Sys2Proof Sys2Proof.Machine

/-! Encoding (spec/30_encoding.md). -/

/-- Decoding the word of a well-formed command gives the command back (30_encoding.md R76, R79, R88). -/
def Obligations.DecodeEncodeRoundTrip : Prop :=
  ∀ i : Instr, i.wellFormed = true → decode (encode i) = .ok i

/-- A word that decodes is the word of the command it decodes to, which is well formed: no two words are one
command, and none decodes to a command with an operand out of range (30_encoding.md R76, R79, R85, R86). -/
def Obligations.DecodedWordReencodes : Prop :=
  ∀ (w : CmdWord) (i : Instr), decode w = .ok i → i.wellFormed = true ∧ encode i = w

/-- Ten example words that the spec prints decode to the commands it prints them for (30_encoding.md R89,
40_galois_field.md R98, 43_round_primitives.md R152, 47_host_commands.md R217, R219). -/
def Obligations.SpecWordsDecode : Prop :=
  decode 0x10005783#32 = .ok (.gfmul 0x57#8 0x83#8) ∧
  decode 0x11000057#32 = .ok (.gfmul2 0x57#8) ∧
  decode 0x22000003#32 = .ok (.kstept 3) ∧
  decode 0x51000001#32 = .ok (.encv true) ∧
  decode 0x60000003#32 = .ok (.parenc true true) ∧
  decode 0x33000005#32 = .ok (.ldblk 5#24) ∧
  decode 0x02000000#32 = .ok (.wrcfg .nBlocks) ∧
  decode 0x03000010#32 = .ok (.rdcfg .clb) ∧
  decode 0x4900000A#32 = .ok (.venclast 10) ∧
  decode 0x04000000#32 = .ok .sreset

/-- The unassigned opcodes of the spec's list are exactly those no command has; a word with one of them is
illegal, whatever its other bits: it is no no-op and no hint (30_encoding.md R84). -/
def Obligations.UnassignedOpcodesAreIllegal : Prop :=
  (∀ w : CmdWord, unassignedOpcode (w.toNat / 2 ^ 24) ↔ decode w = .error .unassignedOpcode) ∧
  ∀ (s : State) (cmd : CmdWord) (w : Block) (rest : List HostMove),
    atPort cmd w rest s → s.live → unassignedOpcode (cmd.toNat / 2 ^ 24) →
    step s = .next (faulted 0x01#8 (present w rest s))

/-- An illegal command word, by the clauses of R83, raises `E_ILLEGAL_CMD` and changes nothing else; every
other word is a command. A block index out of range is no matter of decoding: it raises `E_RANGE`
(30_encoding.md R83). -/
def Obligations.IllegalWordRaisesIllegalCmd : Prop :=
  (∀ (s : State) (cmd : CmdWord) (w : Block) (rest : List HostMove),
    atPort cmd w rest s → s.live → illegalWord cmd → step s = .next (faulted 0x01#8 (present w rest s))) ∧
  (∀ cmd : CmdWord, ¬ illegalWord cmd → ∃ i, decode cmd = .ok i) ∧
  (∀ (s : State) (idx : BitVec 24), s.live → s.nBlocks.toNat ≤ idx.toNat →
    faultsWith (.ldblk idx) 0x03#8 s ∧ (s.sV = true → faultsWith (.stblk idx) 0x03#8 s))

/-- `r` values 11 to 15 are illegal in every command of format R, and `r = 0` in `KSTEPT` and `KASSIST`
(30_encoding.md R85). -/
def Obligations.RoundIndexRanges : Prop :=
  ∀ op : Byte, op.toNat ∈ opcodesR → ∀ r : BitVec 4,
    (∃ i, decode (op ++ (0#20 ++ r)) = .ok i) ↔ r.toNat ≤ 10 ∧ ((op = 0x22#8 ∨ op = 0x24#8) → r.toNat ≠ 0)

/-- The selectors that `RDCFG` and `WRCFG` may name; every other is illegal in that command (30_encoding.md
R86). -/
def Obligations.LegalSelectors : Prop :=
  ∀ sel : Byte,
    ((∃ q, decode (0x03#8 ++ (0#16 ++ sel)) = .ok (.rdcfg q)) ↔ sel.toNat ∈ selectors) ∧
    ((∃ q, decode (0x02#8 ++ (0#16 ++ sel)) = .ok (.wrcfg q)) ↔ sel.toNat ≤ 3)

/-- A command with an operand outside its legal range, given to `exec` without a decoder, raises
`E_ILLEGAL_CMD` too (the model's choice, log 16; no command word decodes to one). -/
def Obligations.IllFormedCommandRaisesIllegalCmd : Prop :=
  ∀ (i : Instr) (s : State), s.live → i.wellFormed = false → faultsWith i 0x01#8 s

/-! The command port, the response and the fatal state. -/

/-- When the host's next move is a command word that decodes to `i`, one step is `exec i` with the word's
`WDATA` at the port and the move taken off the host's list (the list is the model's own, log 5). -/
def Obligations.StepExecutesDecodedCommand : Prop :=
  ∀ (s : State) (cmd : CmdWord) (w : Block) (rest : List HostMove) (i : Instr),
    atPort cmd w rest s → decode cmd = .ok i → step s = exec i (present w rest s)

/-- The host's other moves: none, and the core waits; one byte of memory written, and no other byte changes
(the host's list is the model's own, log 5). -/
def Obligations.HostMovesBetweenCommands : Prop :=
  ∀ s : State,
    (s.host = [] → step s = .next s) ∧
    (∀ (addr : Word64) (b : Byte) (rest : List HostMove), s.host = .store addr b :: rest → s.mem.wf = true →
      ∃ m : Memory, step s = .next { s with host := rest, mem := m } ∧ m.wf = true ∧
        m.read addr.toNat = b ∧ ∀ a, a ≠ addr.toNat → m.read a = s.mem.read a)

/-- `SRESET` and a pulse of `rst` have the same effect, in the fatal state too: every valid bit, `FATAL`,
`ERRCODE` and the configuration are as after reset, host memory and the parameters are unchanged; `State.reset`
has those values; with no command the core waits (70_reset_and_hazards.md R260, 10_state.md R42,
47_host_commands.md R217). The contents of the data registers are the model's choice (log 3) and no part of the
statement. -/
def Obligations.ResetClearsTheCore : Prop :=
  State.reset.hasResetValues ∧
  ∀ s : State,
    (∃ t, exec .sreset s = .next t ∧ t.hasResetValues ∧ t.mem = s.mem ∧ t.params = s.params ∧ t.rsp = .ok ∧
      t.rdata = 0#128) ∧
    (∀ (t : State) (rest : List HostMove), exec .sreset s = .next t → s.host = .rst :: rest →
      ∃ u, step s = .next u ∧ u = { t with rsp := u.rsp, rdata := u.rdata, host := rest }) ∧
    (s.host = [] → step s = .next s)

/-- In the fatal state `RDSTAT` and `SRESET` run as usual; every other command word, legal or not, is refused
with the standing `ERRCODE` and changes nothing, so only `SRESET` clears `FATAL` (60_exceptions.md R241). -/
def Obligations.FatalStateRefuses : Prop :=
  ∀ s : State, s.fatal = true →
    respondsOnly .rdstat (statusWord s) s ∧
    (∃ t, exec .sreset s = .next t ∧ t.fatal = false ∧ t.rsp = .ok) ∧
    ∀ (cmd : CmdWord) (w : Block) (rest : List HostMove), atPort cmd w rest s →
      cmd ≠ 0x01000000#32 → cmd ≠ 0x04000000#32 →
      step s = .next { present w rest s with rsp := .refused, rdata := s.errCode.setWidth 128 }

/-- A command that raises a fault sets `FATAL`, `ERRCODE` to a code of the table and the response, and makes
no other change: no register, valid bit, configuration register, round key or byte of memory (60_exceptions.md
R240). -/
def Obligations.FaultChangesNothingElse : Prop :=
  ∀ (i : Instr) (s t : State), s.live → exec i s = .next t → t.fatal = true →
    ∃ code ∈ [0x01#8, 0x02#8, 0x03#8, 0x10#8, 0x11#8, 0x12#8, 0x13#8, 0x14#8, 0x15#8, 0x20#8, 0x21#8],
      t = faulted code s

/-- Every command responds, and the response tells the outcome: `OK` and the core not fatal, with `RDATA = 0`
from a command that does not `respond`; `FAULT` with the code, and the core fatal; `REFUSED` with the standing
`ERRCODE` when the core was fatal (30_encoding.md R82, R81, 70_reset_and_hazards.md R267). -/
def Obligations.ResponseTellsTheOutcome : Prop :=
  ∀ (i : Instr) (s : State), ∃ t, exec i s = .next t ∧
    (s.live →
      (t.rsp = .ok ∧ t.fatal = false ∧ (i.responds = false → t.rdata = 0#128)) ∨
      (t.rsp = .fault ∧ t.fatal = true ∧ t.rdata = t.errCode.setWidth 128)) ∧
    (s.fatal = true → i ≠ .rdstat → i ≠ .sreset →
      t = { s with rsp := .refused, rdata := s.errCode.setWidth 128 })

/-- Every read of a register, round key or schedule whose valid bit is 0 raises `E_UNINIT` (60_exceptions.md
R237). -/
def Obligations.UninitialisedReadsFault : Prop :=
  ∀ s : State, s.live →
    (s.keyV = false → ∀ i ∈ [Instr.kseed, .kexpt, .kexpv], faultsWith i 0x02#8 s) ∧
    (∀ r, 1 ≤ r → r ≤ 10 → rkValid s (r - 1) = false →
      faultsWith (.kstept r) 0x02#8 s ∧ faultsWith (.kassist r) 0x02#8 s) ∧
    (∀ r, r ≤ 10 → rkValid s r = false →
      ∀ i ∈ [Instr.rdrk r, .addrk r, .venc r, .venclast r], faultsWith i 0x02#8 s) ∧
    (∀ r, r ≤ 10 → rkValid s r = false → ∀ c v,
      ∀ i ∈ [Instr.kinv, .enct c, .encv c, .parenc c v, .gpudisp c], faultsWith i 0x02#8 s) ∧
    (s.ikV = false → ∀ r, r ≤ 10 → ∀ c,
      ∀ i ∈ [Instr.rdik r, .vdec r, .vdeclast r, .decv c], faultsWith i 0x02#8 s) ∧
    (s.sV = false → ∀ r, r ≤ 10 → ∀ c idx,
      ∀ i ∈ [Instr.rds, .stblk idx, .xctr, .subb, .shrow, .mixcol, .addrk r, .isubb, .ishrow, .imixcol, .venc r,
        .venclast r, .vdec r, .vdeclast r, .enct c, .encv c, .decv c], faultsWith i 0x02#8 s) ∧
    (s.ctrV = false → ∀ v, ∀ i ∈ [Instr.xctr, .enct true, .encv true, .decv true, .parenc true v],
      faultsWith i 0x02#8 s)

/-- `LDKEY`, `LDS` and `LDCTR` read all of `WDATA`, `WRCFG` its low 64 bits; every other command ignores it
(30_encoding.md R78). -/
def Obligations.WhoReadsWdata : Prop :=
  (∀ (s : State), s.live →
    (∃ t, exec .ldkey s = .next t ∧ t.regKey = s.wdata) ∧
    (∃ t, exec .lds s = .next t ∧ t.regS = s.wdata) ∧
    (∃ t, exec .ldctr s = .next t ∧ t.regCtr = s.wdata) ∧
    (∀ q : CfgReg, q.writable = true →
      ∃ t, exec (.wrcfg q) s = .next t ∧ readCfg t q = s.wdata.extractLsb' 0 64)) ∧
  (∀ (q : CfgReg) (s t : State) (w : Block), w.extractLsb' 0 64 = s.wdata.extractLsb' 0 64 →
    exec (.wrcfg q) s = .next t → exec (.wrcfg q) { s with wdata := w } = .next { t with wdata := w }) ∧
  ∀ (i : Instr) (s t : State) (w : Block), i.takesWdata = false → exec i s = .next t →
    exec i { s with wdata := w } = .next { t with wdata := w }

/-! System and configuration (spec/47_host_commands.md). -/

/-- `NOP` responds `OK` and changes nothing; with a nonzero operand field the word is illegal; in the fatal
state it is refused (47_host_commands.md R215). -/
def Obligations.NopChangesNothing : Prop :=
  ∀ s : State, (s.live → respondsOnly .nop 0#128 s ∧ illegalOperands 0x00#8 (· ≠ 0) s) ∧
    (s.fatal = true → exec .nop s = .next { s with rsp := .refused, rdata := s.errCode.setWidth 128 })

/-- The status word, field by field, in the fatal state too; `RDSTAT` changes nothing (10_state.md R30,
47_host_commands.md R216). -/
def Obligations.RdstatRespondsStatusWord : Prop :=
  ∀ s : State, ∃ v, respondsOnly .rdstat v s ∧
    v.getLsbD 0 = s.fatal ∧ v.getLsbD 1 = s.keyV ∧ v.getLsbD 2 = s.sV ∧ v.getLsbD 3 = s.ctrV ∧
    v.getLsbD 4 = s.ikV ∧ v.extractLsb' 5 3 = 0#3 ∧ v.extractLsb' 8 8 = s.errCode ∧
    (∀ r, r ≤ 10 → v.getLsbD (16 + r) = s.rkv.getLsbD r) ∧ v.extractLsb' 27 101 = 0#101 ∧
    (s.Inv → s.fatal = false → v.extractLsb' 8 8 = 0#8)

/-- `WRCFG` writes `WDATA[63:0]` to the register it names and nothing else; no value is rejected; an operand
field beyond `sel = 3` is illegal (47_host_commands.md R218). -/
def Obligations.WrcfgWritesTheRegister : Prop :=
  ∀ s : State, s.live →
    exec (.wrcfg .nBlocks) s =
      .next { s with nBlocks := s.wdata.extractLsb' 0 64, rsp := .ok, rdata := 0#128 } ∧
    exec (.wrcfg .threads) s =
      .next { s with threads := s.wdata.extractLsb' 0 64, rsp := .ok, rdata := 0#128 } ∧
    exec (.wrcfg .inBase) s =
      .next { s with inBase := s.wdata.extractLsb' 0 64, rsp := .ok, rdata := 0#128 } ∧
    exec (.wrcfg .outBase) s =
      .next { s with outBase := s.wdata.extractLsb' 0 64, rsp := .ok, rdata := 0#128 } ∧
    illegalOperands 0x02#8 (4 ≤ ·) s

/-- `RDCFG` responds with the register it names, zero-extended, and changes nothing; the read-only registers
show the parameters, `DEV_CEIL` as 0 without a device; an operand field that is no register's number is illegal
(47_host_commands.md R219, 10_state.md R31). -/
def Obligations.RdcfgReadsTheRegister : Prop :=
  ∀ s : State, s.live →
    respondsOnly (.rdcfg .nBlocks) (s.nBlocks.setWidth 128) s ∧
    respondsOnly (.rdcfg .threads) (s.threads.setWidth 128) s ∧
    respondsOnly (.rdcfg .inBase) (s.inBase.setWidth 128) s ∧
    respondsOnly (.rdcfg .outBase) (s.outBase.setWidth 128) s ∧
    respondsOnly (.rdcfg .gpuOffset) (s.gpuOffset.setWidth 128) s ∧
    respondsOnly (.rdcfg .gpuTile) (s.gpuTile.setWidth 128) s ∧
    respondsOnly (.rdcfg .gpuTiles) (s.gpuTiles.setWidth 128) s ∧
    (s.params.wf →
      respondsOnly (.rdcfg .clb) (BitVec.ofNat 128 s.params.clb) s ∧
      respondsOnly (.rdcfg .lanes) (BitVec.ofNat 128 s.params.lanes) s ∧
      respondsOnly (.rdcfg .devCeil)
        (if s.params.devPresent then BitVec.ofNat 128 s.params.devCeil else 0#128) s) ∧
    respondsOnly (.rdcfg .devInfo) (if s.params.devPresent then 1#128 else 0#128) s ∧
    illegalOperands 0x03#8 (· ∉ selectors) s

/-! The Galois field (spec/40_galois_field.md). -/

/-- `GFMUL`, `GFMUL2`, `GFMUL3` respond with the product by `b`, by 2 and by 3, and change nothing, whatever
the operands; the two tables agree with the multiplier (40_galois_field.md R97, R98, R99). -/
def Obligations.GaloisCommandsRespondProducts : Prop :=
  ∀ (a b : Byte) (s : State), s.live →
    respondsOnly (.gfmul a b) ((multiply a b).setWidth 128) s ∧
    respondsOnly (.gfmul2 a) ((multiply a 0x02#8).setWidth 128) s ∧
    respondsOnly (.gfmul3 a) ((multiply a 0x02#8 ^^^ a).setWidth 128) s

/-- `Multiply` is the product of the field: commutative, associative, distributive over XOR, with 1 as
identity and the closed form of the product by 2 modulo 0x11B; and every nonzero element has exactly one
inverse (40_galois_field.md R95, R98, R100). -/
def Obligations.MultiplyIsTheFieldProduct : Prop :=
  (∀ a b : Byte, multiply a b = multiply b a) ∧
  (∀ a b c : Byte, multiply a (multiply b c) = multiply (multiply a b) c) ∧
  (∀ a b c : Byte, multiply a (b ^^^ c) = multiply a b ^^^ multiply a c) ∧
  (∀ a : Byte, multiply a 0x01#8 = a) ∧
  (∀ a : Byte, multiply a 0x02#8 = (a <<< 1) ^^^ (if a.getLsbD 7 then 0x1B#8 else 0x00#8)) ∧
  ∀ a : Byte, a ≠ 0x00#8 → ∃ x, multiply a x = 0x01#8 ∧ ∀ y, multiply a y = 0x01#8 → y = x

/-- Every entry of the S-box is the affine image of the field inverse, and `INV_SBOX` is the inverse
permutation (10_state.md R36, R37). -/
def Obligations.SboxIsAffineOfInverse : Prop :=
  ∀ a : Byte,
    (∃ x, (a = 0x00#8 → x = 0x00#8) ∧ (a ≠ 0x00#8 → multiply a x = 0x01#8) ∧
      sbox a = x ^^^ x.rotateLeft 1 ^^^ x.rotateLeft 2 ^^^ x.rotateLeft 3 ^^^ x.rotateLeft 4 ^^^ 0x63#8) ∧
    invSbox (sbox a) = a ∧ sbox (invSbox a) = a

/-! The key schedule (spec/41_key_schedule_table.md, spec/42_key_schedule_assisted.md). -/

/-- `LDKEY` writes `KEY`, sets `KEY_V`, and clears every bit of `RKV` and `IK_V`; `S`, `CTR` and everything
else stay; with a nonzero operand field the word is illegal. That the contents of `RK` and `IK` stay, while no
valid bit shows them, is the model's reading (log 14) (41_key_schedule_table.md R109, 10_state.md R25, R26). -/
def Obligations.LdkeyDiscardsTheSchedules : Prop :=
  ∀ s : State, s.live →
    exec .ldkey s =
      .next { s with regKey := s.wdata, keyV := true, rkv := 0#11, ikV := false, rsp := .ok, rdata := 0#128 } ∧
    illegalOperands 0x20#8 (· ≠ 0) s

/-- `KSEED` makes `KEY` round key 0 and sets `RKV[0]`; the other round keys and bits keep their values
(41_key_schedule_table.md R110). -/
def Obligations.KseedSeedsRoundKeyZero : Prop :=
  ∀ s : State, s.live → s.keyV = true →
    ∃ t, exec .kseed s = .next t ∧ sameButSchedule s t ∧ t.rsp = .ok ∧ t.rdata = 0#128 ∧
      rkAt t 0 = s.regKey ∧ rkValid t 0 = true ∧
      ∀ j, 1 ≤ j → j ≤ 10 → rkAt t j = rkAt s j ∧ rkValid t j = rkValid s j

/-- `KSTEPT r` and `KASSIST r` make `RK[r]` the round key after `RK[r-1]`, by the same bytes, and set
`RKV[r]`; the other round keys and bits keep their values (41_key_schedule_table.md R111,
42_key_schedule_assisted.md R124, R123). -/
def Obligations.StepCommandsDeriveTheNextRoundKey : Prop :=
  ∀ (s : State) (r : Nat), s.live → 1 ≤ r → r ≤ 10 → rkValid s (r - 1) = true →
    ∃ t, exec (.kstept r) s = .next t ∧ exec (.kassist r) s = .next t ∧ sameButSchedule s t ∧ t.rsp = .ok ∧
      t.rdata = 0#128 ∧ isNextRoundKey r (rkAt s (r - 1)) (rkAt t r) ∧ rkValid t r = true ∧
      ∀ j, j ≤ 10 → j ≠ r → rkAt t j = rkAt s j ∧ rkValid t j = rkValid s j

/-- `KEXPT` and `KEXPV` leave the same state: `RK[0]` is `KEY`, each round key follows from the one before, and
all of `RKV` is set; `IK_V` and everything else stay (41_key_schedule_table.md R112,
42_key_schedule_assisted.md R125, R128). -/
def Obligations.ExpandCommandsDeriveTheSchedule : Prop :=
  ∀ s : State, s.live → s.keyV = true →
    ∃ t, exec .kexpt s = .next t ∧ exec .kexpv s = .next t ∧ sameButSchedule s t ∧ t.rsp = .ok ∧
      t.rdata = 0#128 ∧ t.rkv = 0x7FF#11 ∧ rkAt t 0 = s.regKey ∧
      ∀ r, 1 ≤ r → r ≤ 10 → isNextRoundKey r (rkAt t (r - 1)) (rkAt t r)

/-- `KEXPT` leaves what `KSEED` and `KSTEPT 1` to `KSTEPT 10` leave, and so does `KEXPV` with `KASSIST`
(41_key_schedule_table.md R112, 42_key_schedule_assisted.md R125). -/
def Obligations.ExpandIsSeedAndSteps : Prop :=
  ∀ s : State, s.live → s.keyV = true →
    runCommands (.kseed :: [1, 2, 3, 4, 5, 6, 7, 8, 9, 10].map .kstept) s = exec .kexpt s ∧
    runCommands (.kseed :: [1, 2, 3, 4, 5, 6, 7, 8, 9, 10].map .kassist) s = exec .kexpv s

/-- The recurrence of the standard over all 44 words of the schedule `KEXPT` leaves (41_key_schedule_table.md
R105, R114). -/
def Obligations.ScheduleRecurrence : Prop :=
  ∀ s : State, s.live → s.keyV = true →
    ∃ t, exec .kexpt s = .next t ∧ ∀ i, 4 ≤ i → i ≤ 43 →
      (i % 4 ≠ 0 → scheduleWord t i = scheduleWord t (i - 4) ^^^ scheduleWord t (i - 1)) ∧
      (i % 4 = 0 → scheduleWord t i =
        scheduleWord t (i - 4) ^^^ subWord (scheduleWord t (i - 1) <<< 8 ||| scheduleWord t (i - 1) >>> 24) ^^^
          ((rcon (i / 4)).setWidth 32 <<< 24))

/-- `KINV` copies round keys 0 and 10, transforms 1 to 9 in place of order, and sets `IK_V`; `RK` and
everything else stay (42_key_schedule_assisted.md R126). -/
def Obligations.KinvDerivesTheInverseSchedule : Prop :=
  ∀ s : State, s.live → s.rkv = 0x7FF#11 →
    ∃ t, exec .kinv s = .next t ∧ sameButInverse s t ∧ t.rsp = .ok ∧ t.rdata = 0#128 ∧ t.ikV = true ∧
      ikAt t 0 = rkAt s 0 ∧ ikAt t 10 = rkAt s 10 ∧
      ∀ r, 1 ≤ r → r ≤ 9 → ikAt t r = invMixColumns (rkAt s r)

/-- `RDRK` and `RDIK` respond with the round key they name and change nothing; they raise `E_UNINIT` when its
valid bit is 0, and an operand field beyond 10 is illegal (41_key_schedule_table.md R113,
42_key_schedule_assisted.md R127). -/
def Obligations.RoundKeysAreReadable : Prop :=
  ∀ s : State, s.live →
    (∀ r, r ≤ 10 →
      (rkValid s r = true → respondsOnly (.rdrk r) (rkAt s r) s) ∧
      (rkValid s r = false → faultsWith (.rdrk r) 0x02#8 s) ∧
      (s.ikV = true → respondsOnly (.rdik r) (ikAt s r) s) ∧
      (s.ikV = false → faultsWith (.rdik r) 0x02#8 s)) ∧
    illegalOperands 0x27#8 (10 < ·) s ∧ illegalOperands 0x28#8 (10 < ·) s

/-! Data movement (spec/47_host_commands.md). -/

/-- `LDS` and `LDCTR` write their register and its valid bit, `RDS` responds with `S` or raises `E_UNINIT`, and
nothing else changes; with a nonzero operand field each word is illegal (47_host_commands.md R220, R221, R222). -/
def Obligations.RegisterMoves : Prop :=
  ∀ s : State, s.live →
    exec .lds s = .next { s with regS := s.wdata, sV := true, rsp := .ok, rdata := 0#128 } ∧
    exec .ldctr s = .next { s with regCtr := s.wdata, ctrV := true, rsp := .ok, rdata := 0#128 } ∧
    (s.sV = true → respondsOnly .rds s.regS s) ∧ (s.sV = false → faultsWith .rds 0x02#8 s) ∧
    illegalOperands 0x30#8 (· ≠ 0) s ∧ illegalOperands 0x31#8 (· ≠ 0) s ∧ illegalOperands 0x32#8 (· ≠ 0) s

/-- `LDBLK idx` loads the 16 bytes at `IN_BASE + 16*idx`, byte `k` of memory to byte `k` of `S`, aligned or
not, when the block lies in the buffer and below 2^64 and both buffers end at or below 2^64; else it raises
`E_RANGE`. That the test of the whole buffers comes with the two of R223 is the model's reading (log 21)
(47_host_commands.md R223, 20_memory.md R55). -/
def Obligations.LdblkLoadsTheBlock : Prop :=
  ∀ (s : State) (idx : BitVec 24), s.live →
    (idx.toNat < s.nBlocks.toNat ∧ s.inBase.toNat + 16 * (idx.toNat + 1) ≤ 2 ^ 64 ∧ buffersFit s →
      ∃ v, exec (.ldblk idx) s = .next { s with regS := v, sV := true, rsp := .ok, rdata := 0#128 } ∧
        ∀ k, k < 16 → byteAt v k = s.mem.read (s.inBase.toNat + 16 * idx.toNat + k)) ∧
    (¬(idx.toNat < s.nBlocks.toNat ∧ s.inBase.toNat + 16 * (idx.toNat + 1) ≤ 2 ^ 64 ∧ buffersFit s) →
      faultsWith (.ldblk idx) 0x03#8 s)

/-- `STBLK idx` stores `S` to the 16 bytes at `OUT_BASE + 16*idx`, byte `k` of `S` to byte `k`, and changes no
other byte and nothing else, when the block lies in the buffer and below 2^64 and both buffers end at or below
2^64; else it raises `E_RANGE`, and before that `E_UNINIT` when `S_V = 0`. That the test of the whole buffers
comes with the two of R224 is the model's reading (log 21) (47_host_commands.md R224, 20_memory.md R55). -/
def Obligations.StblkStoresTheBlock : Prop :=
  ∀ (s : State) (idx : BitVec 24), s.live → s.mem.wf = true →
    (s.sV = false → faultsWith (.stblk idx) 0x02#8 s) ∧
    (s.sV = true →
      ¬(idx.toNat < s.nBlocks.toNat ∧ s.outBase.toNat + 16 * (idx.toNat + 1) ≤ 2 ^ 64 ∧ buffersFit s) →
      faultsWith (.stblk idx) 0x03#8 s) ∧
    (s.sV = true → idx.toNat < s.nBlocks.toNat → s.outBase.toNat + 16 * (idx.toNat + 1) ≤ 2 ^ 64 → buffersFit s →
      ∃ t, exec (.stblk idx) s = .next t ∧ sameButMemory s t ∧ t.mem.wf = true ∧ t.rsp = .ok ∧ t.rdata = 0#128 ∧
        (∀ k, k < 16 → t.mem.read (outAddr s idx.toNat + k) = byteAt s.regS k) ∧
        ∀ a, a < outAddr s idx.toNat ∨ outAddr s idx.toNat + 16 ≤ a → t.mem.read a = s.mem.read a)

/-! Round primitives (spec/43_round_primitives.md). -/

/-- `SUBB` and `ISUBB`: each byte of `S` through its table; only `S` changes (43_round_primitives.md R143,
R147, R136, R140). -/
def Obligations.ByteSubstitutions : Prop :=
  ∀ s : State, s.live → s.sV = true →
    (∃ v, exec .subb s = .next (withS v 0#128 s) ∧ ∀ k, k < 16 → byteAt v k = sbox (byteAt s.regS k)) ∧
    (∃ v, exec .isubb s = .next (withS v 0#128 s) ∧ ∀ k, k < 16 → byteAt v k = invSbox (byteAt s.regS k))

/-- `SHROW` and `ISHROW`: the byte permutations `SR` and `ISR`; only `S` changes (43_round_primitives.md R144,
R148, R137, R141). -/
def Obligations.RowShifts : Prop :=
  ∀ s : State, s.live → s.sV = true →
    (∃ v, exec .shrow s = .next (withS v 0#128 s) ∧
      (List.range 16).map (byteAt v) =
        [0, 5, 10, 15, 4, 9, 14, 3, 8, 13, 2, 7, 12, 1, 6, 11].map (byteAt s.regS)) ∧
    (∃ v, exec .ishrow s = .next (withS v 0#128 s) ∧
      (List.range 16).map (byteAt v) =
        [0, 13, 10, 7, 4, 1, 14, 11, 8, 5, 2, 15, 12, 9, 6, 3].map (byteAt s.regS))

/-- `MIXCOL` replaces each column of `S` by its product with the MDS matrix, by the multiplier, whatever tables
compute it, and `IMIXCOL` by its product with the inverse matrix; only `S` changes (43_round_primitives.md R145,
R149, R138, R142). -/
def Obligations.ColumnMixes : Prop :=
  ∀ s : State, s.live → s.sV = true →
    ∃ v w, exec .mixcol s = .next (withS v 0#128 s) ∧ exec .imixcol s = .next (withS w 0#128 s) ∧
      ∀ c, c < 4 → ∀ a0 a1 a2 a3 : Byte, a0 = byteAt s.regS (4 * c) → a1 = byteAt s.regS (4 * c + 1) →
        a2 = byteAt s.regS (4 * c + 2) → a3 = byteAt s.regS (4 * c + 3) →
        byteAt v (4 * c) = multiply 2#8 a0 ^^^ multiply 3#8 a1 ^^^ a2 ^^^ a3 ∧
        byteAt v (4 * c + 1) = a0 ^^^ multiply 2#8 a1 ^^^ multiply 3#8 a2 ^^^ a3 ∧
        byteAt v (4 * c + 2) = a0 ^^^ a1 ^^^ multiply 2#8 a2 ^^^ multiply 3#8 a3 ∧
        byteAt v (4 * c + 3) = multiply 3#8 a0 ^^^ a1 ^^^ a2 ^^^ multiply 2#8 a3 ∧
        byteAt w (4 * c) = multiply 14#8 a0 ^^^ multiply 11#8 a1 ^^^ multiply 13#8 a2 ^^^ multiply 9#8 a3 ∧
        byteAt w (4 * c + 1) = multiply 9#8 a0 ^^^ multiply 14#8 a1 ^^^ multiply 11#8 a2 ^^^ multiply 13#8 a3 ∧
        byteAt w (4 * c + 2) = multiply 13#8 a0 ^^^ multiply 9#8 a1 ^^^ multiply 14#8 a2 ^^^ multiply 11#8 a3 ∧
        byteAt w (4 * c + 3) = multiply 11#8 a0 ^^^ multiply 13#8 a1 ^^^ multiply 9#8 a2 ^^^ multiply 14#8 a3

/-- `ADDRK r` XORs `RK[r]` into `S`, `XCTR` XORs `CTR` itself; only `S` changes (43_round_primitives.md R146,
R150). -/
def Obligations.XorCommands : Prop :=
  ∀ s : State, s.live → s.sV = true →
    (∀ r, r ≤ 10 → rkValid s r = true → exec (.addrk r) s = .next (withS (s.regS ^^^ rkAt s r) 0#128 s)) ∧
    (s.ctrV = true → exec .xctr s = .next (withS (s.regS ^^^ s.regCtr) 0#128 s))

/-- `VENC r` is `SUBB; SHROW; MIXCOL; ADDRK r` and `VENCLAST r` is `SUBB; SHROW; ADDRK r`; only `S` changes
(43_round_primitives.md R151, R152). -/
def Obligations.FusedEncryptionRounds : Prop :=
  ∀ (s : State) (r : Nat), s.live → s.sV = true → r ≤ 10 → rkValid s r = true →
    (∃ v, exec (.venc r) s = .next (withS v 0#128 s) ∧
      runCommands [.subb, .shrow, .mixcol, .addrk r] s = .next (withS v 0#128 s)) ∧
    (∃ v, exec (.venclast r) s = .next (withS v 0#128 s) ∧
      runCommands [.subb, .shrow, .addrk r] s = .next (withS v 0#128 s))

/-- `VDEC r` is `ISHROW; ISUBB; IMIXCOL` and an XOR of `IK[r]`, and `VDECLAST r` the same without `IMIXCOL`;
only `S` changes, and `RK` is not read (43_round_primitives.md R153, R154). -/
def Obligations.FusedDecryptionRounds : Prop :=
  ∀ (s : State) (r : Nat), s.live → s.sV = true → r ≤ 10 → s.ikV = true →
    (∃ v, exec (.vdec r) s = .next (withS (v ^^^ ikAt s r) 0#128 s) ∧
      runCommands [.ishrow, .isubb, .imixcol] s = .next (withS v 0#128 s)) ∧
    (∃ v, exec (.vdeclast r) s = .next (withS (v ^^^ ikAt s r) 0#128 s) ∧
      runCommands [.ishrow, .isubb] s = .next (withS v 0#128 s))

/-- The inverse primitives undo the primitives, an injection undoes itself, and the substitution commutes with
the row shift, forward and inverse (43_round_primitives.md R155). -/
def Obligations.PrimitivesUndoEachOther : Prop :=
  ∀ s : State, s.live → s.sV = true →
    (∀ l ∈ [[Instr.subb, .isubb], [.shrow, .ishrow], [.mixcol, .imixcol]],
      runCommands l s = .next (withS s.regS 0#128 s)) ∧
    (∀ r, r ≤ 10 → rkValid s r = true →
      runCommands [.addrk r, .addrk r] s = .next (withS s.regS 0#128 s)) ∧
    (∃ v, runCommands [.subb, .shrow] s = .next (withS v 0#128 s) ∧
      runCommands [.shrow, .subb] s = .next (withS v 0#128 s)) ∧
    (∃ v, runCommands [.isubb, .ishrow] s = .next (withS v 0#128 s) ∧
      runCommands [.ishrow, .isubb] s = .next (withS v 0#128 s))

/-! The whole-block cipher (spec/44_block_cipher.md). -/

/-- `ENCT` and `ENCV` encrypt `S` with the schedule and, when `c = 1`, with `CTR` itself, by the rounds of
`EncryptBlock`; both respond with the new `S` and change nothing else (44_block_cipher.md R164, R165, R161). -/
def Obligations.EncryptCommandsEncryptTheBlock : Prop :=
  ∀ (s : State) (c : Bool), s.live → s.sV = true → s.rkv = 0x7FF#11 → (c = true → s.ctrV = true) →
    ∀ y, y = encryptBlock s.regS (rkAt s) (if c then some s.regCtr else none) →
      exec (.enct c) s = .next (withS y y s) ∧ exec (.encv c) s = .next (withS y y s)

/-- `DECV` decrypts `S` with the inverse schedule and, when `c = 1`, with `CTR`, by the rounds of
`DecryptBlock`; it responds with the new `S` and changes nothing else (44_block_cipher.md R166, R163). -/
def Obligations.DecvDecryptsTheBlock : Prop :=
  ∀ (s : State) (c : Bool), s.live → s.sV = true → s.ikV = true → (c = true → s.ctrV = true) →
    ∀ y, y = decryptBlock s.regS (ikAt s) (if c then some s.regCtr else none) →
      exec (.decv c) s = .next (withS y y s)

/-- `ENCT`, `ENCV`, `ENC.STEPS` and `ENC.ROUNDS` leave the same `S`, the last two after `XCTR` when `c = 1`,
and nothing else changes (44_block_cipher.md R168, 30_encoding.md R90). -/
def Obligations.EncryptionPathsAgree : Prop :=
  ∀ (s : State) (c : Bool), s.live → s.sV = true → s.rkv = 0x7FF#11 → (c = true → s.ctrV = true) →
    ∃ y, exec (.enct c) s = .next (withS y y s) ∧ exec (.encv c) s = .next (withS y y s) ∧
      runCommands ((if c then [.xctr] else []) ++ encSteps) s = .next (withS y 0#128 s) ∧
      runCommands ((if c then [.xctr] else []) ++ encRounds) s = .next (withS y 0#128 s)

/-- `DEC.ROUNDS` leaves the `S` that `DECV` leaves, in every state the machine can be in (44_block_cipher.md
R171, 30_encoding.md R90). -/
def Obligations.DecryptionPathsAgree : Prop :=
  ∀ s : State, s.Inv → s.live → s.sV = true → s.ikV = true →
    ∃ y, exec (.decv false) s = .next (withS y y s) ∧ runCommands decRounds s = .next (withS y 0#128 s)

/-- Decryption undoes encryption, for every key, every block and every counter: `ENCT` or `ENCV`, then
`DECV`, leaves `S` as it was (44_block_cipher.md R169). -/
def Obligations.DecryptUndoesEncrypt : Prop :=
  ∀ (s : State) (c : Bool), s.Inv → s.live → s.sV = true → s.ikV = true → (c = true → s.ctrV = true) →
    ∀ i ∈ [Instr.enct c, .encv c], runCommands [i, .decv c] s = .next (withS s.regS s.regS s)

/-- The source's own vector, by both paths, and back (44_block_cipher.md R164 to R166, 95_test_vectors.md V1,
V2). -/
def Obligations.StandardVector : Prop :=
  ∀ s : State, s.live → s.keyV = true → s.regKey = blockHex 0x2b7e151628aed2a6abf7158809cf4f3c → s.sV = true →
    s.regS = blockHex 0x3243f6a8885a308d313198a2e0370734 →
    (∀ l ∈ [[Instr.kexpt, .enct false], [.kexpv, .encv false]], ∃ t, runCommands l s = .next t ∧
      t.rsp = .ok ∧ t.rdata = blockHex 0x3925841d02dc09fbdc118597196a0b32) ∧
    ∃ t, runCommands [.kexpt, .encv false, .kinv, .decv false] s = .next t ∧ t.rsp = .ok ∧
      t.rdata = blockHex 0x3243f6a8885a308d313198a2e0370734

/-! The bulk commands (spec/45_parallel_partitioner.md, spec/46_gpu_batch_tiler.md). -/

/-- The tests of `PARENC`, in their order: the first that fails raises its fault and nothing else happens;
when none fails the command runs to `OK` (45_parallel_partitioner.md R178). -/
def Obligations.ParencTestsInOrder : Prop :=
  ∀ (s : State) (c v : Bool), s.live → ∃ t, exec (.parenc c v) s = .next t ∧
    if s.rkv ≠ 0x7FF#11 then t = faulted 0x02#8 s
    else if c = true ∧ s.ctrV = false then t = faulted 0x02#8 s
    else if s.nBlocks.toNat = 0 then t = faulted 0x10#8 s
    else if s.threads.toNat = 0 ∨ s.params.lanes < s.threads.toNat then t = faulted 0x11#8 s
    else if s.nBlocks.toNat % s.threads.toNat ≠ 0 then t = faulted 0x12#8 s
    else if s.nBlocks.toNat / s.threads.toNat % s.params.clb ≠ 0 then t = faulted 0x12#8 s
    else if ¬ buffersFit s then t = faulted 0x03#8 s
    else if s.inBase.toNat % (16 * s.params.clb) ≠ 0 then t = faulted 0x13#8 s
    else if s.outBase.toNat % (16 * s.params.clb) ≠ 0 then t = faulted 0x13#8 s
    else if buffersOverlap s then t = faulted 0x14#8 s
    else if s.params.laneOk = false then t = faulted 0x20#8 s
    else t.fatal = false ∧ t.rsp = .ok

/-- `PARENC`, when its tests hold, encrypts every block of the buffer with the counter of its global index,
changes no byte outside the output buffer, and keeps everything in the core; the lanes are gone
(45_parallel_partitioner.md R176, R185). -/
def Obligations.ParencEncryptsEveryBlock : Prop :=
  ∀ (s : State) (c v : Bool), s.Inv → s.live → ParencAllowed c s →
    ∃ t, exec (.parenc c v) s = .next t ∧ t.rsp = .ok ∧ t.rdata = 0#128 ∧ sameButParenc s t ∧
      EncryptsBuffer (bulkCounter c s s.regCtr) s t

/-- Neither the order in which the lanes step nor the path bit `v` nor the number of lanes changes the result
of a `PARENC` that is allowed (45_parallel_partitioner.md R182, R185, R186). -/
def Obligations.ParencIgnoresScheduleAndPath : Prop :=
  ∀ (s : State) (c v v' : Bool) (order : List Nat) (n : Word64), s.Inv → s.live → ParencAllowed c s →
    ParencAllowed c { s with threads := n } →
    ∃ t t', exec (.parenc c v) s = .next t ∧
      exec (.parenc c v') { s with sched := order, threads := n } = .next t' ∧ t'.mem = t.mem

/-- What the history of a `PARENC` holds: every lane reads and writes blocks of its own slice only, at that
block's address, and the whole buffer is read and written by exactly `N` reads and `N` writes
(45_parallel_partitioner.md R177, R181, R182; the history is the model's own, log 10). -/
def Obligations.ParencLanesKeepToTheirSlices : Prop :=
  ∀ (s : State) (c v : Bool), s.live → ParencAllowed c s →
    ∃ t es, exec (.parenc c v) s = .next t ∧ t.history = es ++ s.history ∧
      (∀ who a x, (Event.memRead who a x ∈ es → ∃ k g, who = .lane k ∧ inSlice s k g ∧ a = inAddr s g) ∧
        (Event.memWrite who a x ∈ es → ∃ k g, who = .lane k ∧ inSlice s k g ∧ a = outAddr s g)) ∧
      (es.filter Event.isMemRead).length = s.nBlocks.toNat ∧ (es.filter Event.isMemWrite).length = s.nBlocks.toNat

/-- The tests of `GPUDISP`, in their order: the first that fails raises its fault and nothing else happens;
when none fails the command runs to `OK`. No alignment and no `CTR_V` is tested (46_gpu_batch_tiler.md
R197). -/
def Obligations.GpudispTestsInOrder : Prop :=
  ∀ (s : State) (c : Bool), s.live → ∃ t, exec (.gpudisp c) s = .next t ∧
    if s.rkv ≠ 0x7FF#11 then t = faulted 0x02#8 s
    else if s.nBlocks.toNat = 0 then t = faulted 0x10#8 s
    else if ¬ buffersFit s then t = faulted 0x03#8 s
    else if buffersOverlap s then t = faulted 0x14#8 s
    else if s.params.devPresent = false then t = faulted 0x21#8 s
    else if s.params.kernelOk = false then t = faulted 0x15#8 s
    else if s.params.devCeil = 0 then t = faulted 0x21#8 s
    else t.fatal = false ∧ t.rsp = .ok

/-- `GPUDISP`, when its tests hold, encrypts every block of the buffer with the counter of its global index
from the all-zero base, whatever the ceiling, changes no byte outside the output buffer, and leaves the
progress registers at `N`, `TILE = min(N, C)` and `ceil(N / TILE)`; the device buffers are gone
(46_gpu_batch_tiler.md R196, R206, R208, R209). -/
def Obligations.GpudispEncryptsEveryBlock : Prop :=
  ∀ (s : State) (c : Bool), s.Inv → s.live → GpudispAllowed s →
    ∃ t, exec (.gpudisp c) s = .next t ∧ t.rsp = .ok ∧ t.rdata = 0#128 ∧ sameButGpudisp s t ∧
      t.gpuOffset = s.nBlocks ∧ t.gpuTile.toNat = min s.nBlocks.toNat s.params.devCeil ∧
      t.gpuTiles.toNat = (s.nBlocks.toNat + t.gpuTile.toNat - 1) / t.gpuTile.toNat ∧
      EncryptsBuffer (bulkCounter c s 0#128) s t

/-- `GPUDISP` does not read `CTR` or `CTR_V`, with the counter or without, in any outcome
(46_gpu_batch_tiler.md R209). -/
def Obligations.GpudispIgnoresTheCounterRegister : Prop :=
  ∀ (s t : State) (c : Bool) (x : Block) (b : Bool), exec (.gpudisp c) s = .next t →
    exec (.gpudisp c) { s with regCtr := x, ctrV := b } = .next { t with regCtr := x, ctrV := b }

/-- A `GPUDISP` that runs writes the schedule to the device exactly once, and it is `RK`
(46_gpu_batch_tiler.md R199; the history is the model's own, log 10). -/
def Obligations.ScheduleIsWrittenToTheDeviceOnce : Prop :=
  ∀ (s : State) (c : Bool), s.live → GpudispAllowed s →
    ∃ t es, exec (.gpudisp c) s = .next t ∧ t.history = es ++ s.history ∧
      es.filter Event.isScheduleWrite = [.scheduleWrite s.rk]

/-! What every step keeps, and who writes what. -/

/-- The state after reset meets the invariant (10_state.md R42; the contents it gives the registers are the
model's choice, log 3). -/
def Obligations.ResetMeetsTheInvariant : Prop := State.reset.Inv

/-- Every step keeps the invariant: memory in canonical form (log 7); a valid round key is the round key of
`KEY`; a valid inverse schedule is that of a whole valid schedule; `ERRCODE` is 0 when the core is not fatal; no
lane, tiler or device buffer outlives its command (10_state.md R25, R26, R32, R33, 60_exceptions.md R236). -/
def Obligations.StepKeepsTheInvariant : Prop :=
  ∀ s t : State, s.Inv → step s = .next t → t.Inv

/-- Which commands write `S`, `KEY`, `CTR`, `RK`, `IK`, their valid bits and the configuration: no other
command changes them; and no command at all changes the implementation parameters (10_state.md R23, R25, R26, R29,
R31, 00_scope.md R10). -/
def Obligations.RegistersAndTheirWriters : Prop :=
  ∀ (i : Instr) (s t : State), exec i s = .next t → t.params = s.params ∧ (i ≠ .sreset →
    (i.writesS = false → t.regS = s.regS ∧ t.sV = s.sV) ∧
    (i ≠ .ldkey → t.regKey = s.regKey ∧ t.keyV = s.keyV) ∧
    (i ≠ .ldctr → t.regCtr = s.regCtr ∧ t.ctrV = s.ctrV) ∧
    (i.derivesSchedule = false → t.rk = s.rk ∧ (i ≠ .ldkey → t.rkv = s.rkv)) ∧
    (i ≠ .kinv → t.ik = s.ik ∧ (i ≠ .ldkey → t.ikV = s.ikV)) ∧
    (i ≠ .wrcfg .nBlocks → t.nBlocks = s.nBlocks) ∧ (i ≠ .wrcfg .threads → t.threads = s.threads) ∧
    (i ≠ .wrcfg .inBase → t.inBase = s.inBase) ∧ (i ≠ .wrcfg .outBase → t.outBase = s.outBase) ∧
    ((∀ c, i ≠ .gpudisp c) → t.gpuOffset = s.gpuOffset ∧ t.gpuTile = s.gpuTile ∧ t.gpuTiles = s.gpuTiles))

/-- Which commands write host memory: `STBLK`, `PARENC` and `GPUDISP`; and no command ever writes a byte
outside the output buffer (20_memory.md R50, R51). -/
def Obligations.OnlyTheOutputBufferIsWritten : Prop :=
  ∀ (i : Instr) (s t : State), exec i s = .next t →
    (i.writesMemory = false → t.mem = s.mem) ∧
    ∀ a, a < s.outBase.toNat ∨ s.outBase.toNat + 16 * s.nBlocks.toNat ≤ a → t.mem.read a = s.mem.read a
end

