-- ==== Sys2Proof/Laws/Bytes.lean ====
section
/-! SUPPORT. The laws of bytes, words and lanes of a block: what is put in is read back, and a block is
known by its bytes. -/

namespace Sys2Proof.Machine

theorem digits_lt (f : Nat → Byte) (n : Nat) : digits f n < 256 ^ n := by
  induction n with
  | zero => simp [digits]
  | succ n ih =>
    have h : (f n).toNat < 256 := (f n).isLt
    have : 256 ^ n * (f n).toNat ≤ 256 ^ n * 255 := Nat.mul_le_mul_left _ (by omega)
    simp only [digits, pow_succ]
    omega

theorem digits_digit (f : Nat → Byte) {n k : Nat} (h : k < n) : digits f n / 256 ^ k % 256 = (f k).toNat := by
  induction n with
  | zero => omega
  | succ n ih =>
    simp only [digits]
    rcases Nat.lt_succ_iff_lt_or_eq.mp h with h | rfl
    · obtain ⟨d, rfl⟩ : ∃ d, n = k + 1 + d := ⟨n - (k + 1), by omega⟩
      have e : 256 ^ (k + 1 + d) * (f (k + 1 + d)).toNat = 256 ^ k * (256 * (256 ^ d * (f (k + 1 + d)).toNat)) := by
        ring
      rw [e, Nat.add_mul_div_left _ _ (by positivity), Nat.add_mul_mod_self_left, ih (by omega)]
    · rw [Nat.add_mul_div_left _ _ (by positivity), Nat.div_eq_of_lt (digits_lt f k), Nat.zero_add,
        Nat.mod_eq_of_lt (f k).isLt]

theorem byteAt_toNat (w : Block) (k : Nat) : (byteAt w k).toNat = w.toNat / 256 ^ k % 256 := by
  have : (2 : Nat) ^ (8 * k) = 256 ^ k := by rw [pow_mul]; norm_num
  simp [byteAt, BitVec.extractLsb'_toNat, Nat.shiftRight_eq_div_pow, this]

/-- Byte `k` of the block with bytes `f 0 .. f 15` is `f k`. -/
@[simp] theorem byteAt_blockOf (f : Nat → Byte) {k : Nat} (h : k < 16) : byteAt (blockOf f) k = f k := by
  apply BitVec.eq_of_toNat_eq
  have hd : digits f 16 < 2 ^ 128 := by
    have := digits_lt f 16
    have e : (256 : Nat) ^ 16 = 2 ^ 128 := by norm_num
    omega
  rw [byteAt_toNat, blockOf, BitVec.toNat_ofNat, Nat.mod_eq_of_lt hd, digits_digit f h]

theorem byteAt_getLsbD (w : Block) (k i : Nat) : (byteAt w k).getLsbD i = (decide (i < 8) && w.getLsbD (8 * k + i)) := by
  simp [byteAt, BitVec.getLsbD_extractLsb']

/-- Two blocks with the same sixteen bytes are equal. -/
theorem block_ext {v w : Block} (h : ∀ k, k < 16 → byteAt v k = byteAt w k) : v = w := by
  apply BitVec.eq_of_getLsbD_eq
  intro i hi
  have hk := h (i / 8) (by omega)
  have hb := congrArg (fun x : Byte => x.getLsbD (i % 8)) hk
  simp only [byteAt_getLsbD] at hb
  have e : 8 * (i / 8) + i % 8 = i := by omega
  have l : i % 8 < 8 := by omega
  simpa [e, l] using hb

/-- A block is made of its bytes. -/
@[simp] theorem blockOf_byteAt (w : Block) : blockOf (byteAt w) = w :=
  block_ext fun _ h => byteAt_blockOf _ h

/-- `blockOf` looks at the sixteen bytes only. -/
theorem blockOf_congr {f g : Nat → Byte} (h : ∀ k, k < 16 → f k = g k) : blockOf f = blockOf g :=
  block_ext fun k hk => by rw [byteAt_blockOf f hk, byteAt_blockOf g hk, h k hk]

/-- XOR is byte by byte. -/
@[simp] theorem byteAt_xor (v w : Block) (k : Nat) : byteAt (v ^^^ w) k = byteAt v k ^^^ byteAt w k := by
  apply BitVec.eq_of_getLsbD_eq
  intro i hi
  rw [byteAt_getLsbD, BitVec.getLsbD_xor, BitVec.getLsbD_xor, byteAt_getLsbD, byteAt_getLsbD]
  simp [hi]

theorem be32_getLsbD (x0 x1 x2 x3 : Byte) (i : Nat) :
    (be32 x0 x1 x2 x3).getLsbD i =
      if i < 8 then x3.getLsbD i
      else if i < 16 then x2.getLsbD (i - 8)
      else if i < 24 then x1.getLsbD (i - 16)
      else x0.getLsbD (i - 24) := by
  simp only [be32, BitVec.getLsbD_append]
  split_ifs <;> first | rfl | omega

@[simp] theorem be32Byte_be32_zero (x0 x1 x2 x3 : Byte) : be32Byte (be32 x0 x1 x2 x3) 0 = x0 := by
  apply BitVec.eq_of_getLsbD_eq
  intro i hi
  simp [be32Byte, be32_getLsbD, hi, show ¬ 24 + i < 8 by omega,
    show ¬ 24 + i < 16 by omega]

@[simp] theorem be32Byte_be32_one (x0 x1 x2 x3 : Byte) : be32Byte (be32 x0 x1 x2 x3) 1 = x1 := by
  apply BitVec.eq_of_getLsbD_eq
  intro i hi
  simp [be32Byte, be32_getLsbD, hi, show ¬ 16 + i < 8 by omega,
    show 16 + i < 24 by omega]

@[simp] theorem be32Byte_be32_two (x0 x1 x2 x3 : Byte) : be32Byte (be32 x0 x1 x2 x3) 2 = x2 := by
  apply BitVec.eq_of_getLsbD_eq
  intro i hi
  simp [be32Byte, be32_getLsbD, hi, show 8 + i < 16 by omega]

@[simp] theorem be32Byte_be32_three (x0 x1 x2 x3 : Byte) : be32Byte (be32 x0 x1 x2 x3) 3 = x3 := by
  apply BitVec.eq_of_getLsbD_eq
  intro i hi
  simp [be32Byte, be32_getLsbD, hi]

/-- A word is made of its big-endian bytes. -/
@[simp] theorem be32_be32Byte (w : Word32) :
    be32 (be32Byte w 0) (be32Byte w 1) (be32Byte w 2) (be32Byte w 3) = w := by
  apply BitVec.eq_of_getLsbD_eq
  intro i hi
  rw [be32_getLsbD]
  split_ifs <;> simp [be32Byte, BitVec.getLsbD_extractLsb'] <;> (try omega) <;>
    (first
      | (have : i - 8 < 8 := by omega
         have e : 8 + (i - 8) = i := by omega
         simp [this, e])
      | (have : i - 16 < 8 := by omega
         have e : 16 + (i - 16) = i := by omega
         simp [this, e])
      | (have : i - 24 < 8 := by omega
         have e : 24 + (i - 24) = i := by omega
         simp [this, e]))

/-- Word `j` of a block made of four words is the `j`-th of them. -/
@[simp] theorem wordAt_blockOfWords (q : Nat → Word32) {j : Nat} (h : j < 4) : wordAt (blockOfWords q) j = q j := by
  unfold wordAt blockOfWords
  rw [byteAt_blockOf _ (by omega), byteAt_blockOf _ (by omega), byteAt_blockOf _ (by omega),
    byteAt_blockOf _ (by omega)]
  have e0 : 4 * j / 4 = j := by omega
  have e1 : (4 * j + 1) / 4 = j := by omega
  have e2 : (4 * j + 2) / 4 = j := by omega
  have e3 : (4 * j + 3) / 4 = j := by omega
  have m0 : 4 * j % 4 = 0 := by omega
  have m1 : (4 * j + 1) % 4 = 1 := by omega
  have m2 : (4 * j + 2) % 4 = 2 := by omega
  have m3 : (4 * j + 3) % 4 = 3 := by omega
  rw [e0, e1, e2, e3, m0, m1, m2, m3, be32_be32Byte]

/-- Two blocks with the same four words are equal. -/
theorem block_ext_words {v w : Block} (h : ∀ j, j < 4 → wordAt v j = wordAt w j) : v = w := by
  apply block_ext
  intro k hk
  have hw := h (k / 4) (by omega)
  have hb := congrArg (fun x => be32Byte x (k % 4)) hw
  simp only [wordAt] at hb
  have hm : k % 4 = 0 ∨ k % 4 = 1 ∨ k % 4 = 2 ∨ k % 4 = 3 := by omega
  rcases hm with m | m | m | m <;> rw [m] at hb <;> simp at hb
  · have e : 4 * (k / 4) = k := by omega
    rwa [e] at hb
  · have e : 4 * (k / 4) + 1 = k := by omega
    rwa [e] at hb
  · have e : 4 * (k / 4) + 2 = k := by omega
    rwa [e] at hb
  · have e : 4 * (k / 4) + 3 = k := by omega
    rwa [e] at hb

/-- Byte `k` of the lanes of a block: byte `k mod 4` of lane `k div 4`, least significant first. -/
theorem byteAt_blockOfLanes (d : Nat → Word32) {k : Nat} (h : k < 16) :
    byteAt (blockOfLanes d) k = (d (k / 4)).extractLsb' (8 * (k % 4)) 8 := byteAt_blockOf _ h

theorem laneAt_byte (w : Block) {j i : Nat} (hi : i < 4) : (laneAt w j).extractLsb' (8 * i) 8 = byteAt w (4 * j + i) := by
  apply BitVec.eq_of_getLsbD_eq
  intro b hb
  simp only [laneAt, byteAt, BitVec.getLsbD_extractLsb', hb, decide_true, Bool.true_and]
  have h1 : 8 * i + b < 32 := by omega
  have e : 32 * j + (8 * i + b) = 8 * (4 * j + i) + b := by omega
  simp [h1, e]

/-- Entry `r` of a whole schedule. -/
@[simp] theorem roundKey_schedule (f : Nat → Block) {r : Nat} (h : r ≤ 10) : roundKey (schedule f) r = f r := by
  interval_cases r <;> rfl

/-- A schedule array after the write of one entry. -/
theorem roundKey_setRoundKey (ks : Vector Block 11) {r j : Nat} (v : Block) (hr : r ≤ 10) (hj : j ≤ 10) :
    roundKey (setRoundKey ks r v) j = if j = r then v else roundKey ks j := by
  simp only [roundKey, setRoundKey, Vector.getElem?_setIfInBounds]
  by_cases e : r = j
  · subst e
    simp [show r < 11 by omega]
  · simp [e, Ne.symm e]

end Sys2Proof.Machine
end

