-- ==== Sys2Proof/Laws/Memory.lean ====
section
/-! SUPPORT. The laws of host memory: every operation keeps the canonical form, a read after a write to the
same place gives what was written, a write leaves every other place alone, and memories in canonical form that
read alike are equal. -/

namespace Sys2Proof.Machine

/-! The canonical form. -/

theorem wfFrom_weaken {lo lo' : Nat} (h : lo' ≤ lo) {m : Memory} (hm : Memory.wfFrom lo m = true) :
    Memory.wfFrom lo' m = true := by
  cases m with
  | nil => rfl
  | cons c rest =>
    simp only [Memory.wfFrom, Bool.and_eq_true, decide_eq_true_eq] at hm ⊢
    obtain ⟨⟨⟨h1, h2⟩, h3⟩, h4⟩ := hm
    exact ⟨⟨⟨by omega, h2⟩, h3⟩, h4⟩

theorem write_wfFrom {lo : Nat} {m : Memory} (hm : Memory.wfFrom lo m = true) {a : Nat} (hlo : lo ≤ a)
    (ha : a < 2 ^ 64) (b : Byte) : Memory.wfFrom lo (Memory.write m a b) = true := by
  induction m generalizing lo with
  | nil =>
    simp only [Memory.write]
    split_ifs with hb
    · rfl
    · simp only [Memory.wfFrom, Bool.and_eq_true, decide_eq_true_eq, bne_iff_ne, ne_eq, Bool.and_true]
      exact ⟨⟨hlo, ha⟩, hb⟩
  | cons c rest ih =>
    obtain ⟨k, c⟩ := c
    simp only [Memory.wfFrom, Bool.and_eq_true, decide_eq_true_eq] at hm
    obtain ⟨⟨⟨h1, h2⟩, h3⟩, h4⟩ := hm
    simp only [Memory.write]
    split_ifs with hak hb he hb
    · simp only [Memory.wfFrom, Bool.and_eq_true, decide_eq_true_eq]
      exact ⟨⟨⟨h1, h2⟩, h3⟩, h4⟩
    · simp only [Memory.wfFrom, Bool.and_eq_true, decide_eq_true_eq]
      exact ⟨⟨⟨hlo, ha⟩, by simpa using hb⟩, ⟨⟨⟨by omega, h2⟩, h3⟩, h4⟩⟩
    · exact wfFrom_weaken (by omega) h4
    · subst he
      simp only [Memory.wfFrom, Bool.and_eq_true, decide_eq_true_eq]
      exact ⟨⟨⟨hlo, ha⟩, by simpa using hb⟩, h4⟩
    · simp only [Memory.wfFrom, Bool.and_eq_true, decide_eq_true_eq]
      exact ⟨⟨⟨h1, h2⟩, h3⟩, ih h4 (by omega)⟩

/-- The write of a byte keeps the canonical form. -/
theorem write_wf {m : Memory} (hm : m.wf = true) {a : Nat} (ha : a < 2 ^ 64) (b : Byte) :
    Memory.wf (m.write a b) = true := write_wfFrom hm (Nat.zero_le a) ha b

theorem writeBytes_wf {m : Memory} (hm : m.wf = true) {addr : Nat} (v : Block) {n : Nat}
    (h : addr + n ≤ 2 ^ 64) : Memory.wf (m.writeBytes addr v n) = true := by
  induction n with
  | zero => exact hm
  | succ n ih => exact write_wf (ih (by omega)) (by omega) _

/-- The write of a block keeps the canonical form. -/
theorem writeBlock_wf {m : Memory} (hm : m.wf = true) {addr : Nat} (h : addr + 16 ≤ 2 ^ 64) (v : Block) :
    Memory.wf (m.writeBlock addr v) = true := writeBytes_wf hm v h

/-- Memory after reset, nothing listed, is in canonical form. -/
theorem reset_mem_wf : State.reset.mem.wf = true := rfl

/-! Reading what was written. -/

theorem read_below {lo : Nat} {m : Memory} (hm : Memory.wfFrom lo m = true) {a : Nat} (h : a < lo) :
    Memory.read m a = unlistedByte a := by
  induction m generalizing lo with
  | nil => rfl
  | cons c rest ih =>
    obtain ⟨k, c⟩ := c
    simp only [Memory.wfFrom, Bool.and_eq_true, decide_eq_true_eq] at hm
    obtain ⟨⟨⟨h1, h2⟩, h3⟩, h4⟩ := hm
    simp only [Memory.read, show k ≠ a by omega, if_false]
    exact ih h4 (by omega)

theorem read_write_same_from {lo : Nat} {m : Memory} (hm : Memory.wfFrom lo m = true) (a : Nat) (b : Byte) :
    Memory.read (Memory.write m a b) a = b := by
  induction m generalizing lo with
  | nil =>
    simp only [Memory.write]
    split_ifs with hb
    · simp [Memory.read, hb]
    · simp [Memory.read]
  | cons c rest ih =>
    obtain ⟨k, c⟩ := c
    simp only [Memory.wfFrom, Bool.and_eq_true, decide_eq_true_eq] at hm
    obtain ⟨⟨⟨h1, h2⟩, h3⟩, h4⟩ := hm
    simp only [Memory.write]
    split_ifs with hak hb he hb
    · rw [Memory.read, if_neg (by omega), read_below h4 (by omega), hb]
    · simp [Memory.read]
    · subst he
      rw [read_below h4 (by omega), hb]
    · simp [Memory.read]
    · rw [Memory.read, if_neg (by omega), ih h4]

/-- A byte written is read back. -/
theorem read_write_same {m : Memory} (hm : m.wf = true) (a : Nat) (b : Byte) : (m.write a b).read a = b :=
  read_write_same_from hm a b

/-- The write of a byte leaves every other byte alone. -/
theorem read_write_other (m : Memory) {a a' : Nat} (h : a' ≠ a) (b : Byte) :
    Memory.read (Memory.write m a b) a' = Memory.read m a' := by
  induction m with
  | nil =>
    simp only [Memory.write]
    split_ifs
    · rfl
    · simp [Memory.read, Ne.symm h]
  | cons c rest ih =>
    obtain ⟨k, c⟩ := c
    simp only [Memory.write]
    split_ifs with hak hb he hb
    · rfl
    · simp [Memory.read, Ne.symm h]
    · subst he
      simp [Memory.read, Ne.symm h]
    · subst he
      simp [Memory.read, Ne.symm h]
    · simp only [Memory.read, ih]

theorem read_writeBytes {m : Memory} (hm : m.wf = true) {addr : Nat} (v : Block) {n : Nat}
    (h : addr + n ≤ 2 ^ 64) (a : Nat) :
    Memory.read (m.writeBytes addr v n) a =
      if addr ≤ a ∧ a < addr + n then byteAt v (a - addr) else m.read a := by
  induction n with
  | zero => rw [if_neg (by omega)]; rfl
  | succ n ih =>
    simp only [Memory.writeBytes]
    by_cases e : a = addr + n
    · subst e
      rw [read_write_same (writeBytes_wf hm v (by omega)), if_pos (by omega), Nat.add_sub_cancel_left]
    · rw [read_write_other _ e, ih (by omega)]
      by_cases c : addr ≤ a ∧ a < addr + n
      · rw [if_pos c, if_pos (by omega)]
      · rw [if_neg c, if_neg (by omega)]

/-- Every byte after the write of a block (spec/20_memory.md R52). -/
theorem read_writeBlock {m : Memory} (hm : m.wf = true) {addr : Nat} (h : addr + 16 ≤ 2 ^ 64) (v : Block) (a : Nat) :
    Memory.read (m.writeBlock addr v) a =
      if addr ≤ a ∧ a < addr + 16 then byteAt v (a - addr) else m.read a := read_writeBytes hm v h a

/-- A byte outside the sixteen written ones is unchanged, whatever the memory. -/
theorem read_writeBlock_outside (m : Memory) {addr : Nat} (v : Block) {a : Nat} (h : a < addr ∨ addr + 16 ≤ a) :
    Memory.read (m.writeBlock addr v) a = m.read a := by
  have go : ∀ n, n ≤ 16 → Memory.read (m.writeBytes addr v n) a = m.read a := by
    intro n
    induction n with
    | zero => intro _; rfl
    | succ n ih =>
      intro hn
      rw [Memory.writeBytes, read_write_other _ (by omega), ih (by omega)]
  exact go 16 (le_refl _)

/-- Byte `k` of a block read is the byte at `addr + k` (spec/20_memory.md R52). -/
@[simp] theorem byteAt_readBlock (m : Memory) (addr : Nat) {k : Nat} (h : k < 16) :
    byteAt (m.readBlock addr) k = m.read (addr + k) := byteAt_blockOf _ h

/-- A block written is read back. -/
theorem readBlock_writeBlock_same {m : Memory} (hm : m.wf = true) {addr : Nat} (h : addr + 16 ≤ 2 ^ 64) (v : Block) :
    (m.writeBlock addr v).readBlock addr = v := by
  apply block_ext
  intro k hk
  rw [byteAt_readBlock _ _ hk, read_writeBlock hm h, if_pos (by omega), Nat.add_sub_cancel_left]

/-- The write of a block leaves a block elsewhere alone. -/
theorem readBlock_writeBlock_other (m : Memory) {addr addr' : Nat} (v : Block)
    (h : addr' + 16 ≤ addr ∨ addr + 16 ≤ addr') : (m.writeBlock addr v).readBlock addr' = m.readBlock addr' := by
  apply block_ext
  intro k hk
  rw [byteAt_readBlock _ _ hk, byteAt_readBlock _ _ hk, read_writeBlock_outside _ _ (by omega)]

/-! Equal memories. -/

theorem eq_of_read_from {lo : Nat} {m m' : Memory} (hm : Memory.wfFrom lo m = true)
    (hm' : Memory.wfFrom lo m' = true) (h : ∀ a, lo ≤ a → Memory.read m a = Memory.read m' a) : m = m' := by
  induction m generalizing lo m' with
  | nil =>
    cases m' with
    | nil => rfl
    | cons c rest =>
      obtain ⟨k, c⟩ := c
      simp only [Memory.wfFrom, Bool.and_eq_true, decide_eq_true_eq, bne_iff_ne, ne_eq] at hm'
      have := h k hm'.1.1.1
      simp only [Memory.read, if_true] at this
      exact absurd this.symm hm'.1.2
  | cons c rest ih =>
    obtain ⟨k, c⟩ := c
    have hm0 := hm
    simp only [Memory.wfFrom, Bool.and_eq_true, decide_eq_true_eq, bne_iff_ne, ne_eq] at hm
    obtain ⟨⟨⟨h1, h2⟩, h3⟩, h4⟩ := hm
    cases m' with
    | nil =>
      have := h k h1
      simp only [Memory.read, if_true] at this
      exact absurd this h3
    | cons c' rest' =>
      obtain ⟨k', c'⟩ := c'
      have hm0' := hm'
      simp only [Memory.wfFrom, Bool.and_eq_true, decide_eq_true_eq, bne_iff_ne, ne_eq] at hm'
      obtain ⟨⟨⟨h1', h2'⟩, h3'⟩, h4'⟩ := hm'
      have hk : k = k' := by
        rcases Nat.lt_trichotomy k k' with hl | he | hl
        · have e := h k h1
          rw [Memory.read, if_pos rfl, Memory.read, if_neg (by omega), read_below h4' (by omega)] at e
          exact absurd e h3
        · exact he
        · have e := h k' h1'
          rw [Memory.read, if_neg (by omega), read_below h4 (by omega), Memory.read, if_pos rfl] at e
          exact absurd e.symm h3'
      subst hk
      have hc : c = c' := by simpa [Memory.read] using h k h1
      subst hc
      rw [ih h4 h4' ?_]
      intro a ha
      have e := h a (by omega)
      rwa [Memory.read, if_neg (by omega), Memory.read, if_neg (by omega)] at e

/-- Two memories in canonical form that read alike are equal. -/
theorem eq_of_read {m m' : Memory} (hm : m.wf = true) (hm' : m'.wf = true) (h : ∀ a, m.read a = m'.read a) :
    m = m' := eq_of_read_from hm hm' fun a _ => h a

end Sys2Proof.Machine
end

