-- ==== Sys2Proof/Laws/State.lean ====
section
/-! SUPPORT. One lemma for each field of `State` under each named update, so that no proof unfolds a record
update. -/

namespace Sys2Proof.Machine

/-! `respond`. -/

@[simp] theorem respond_regS (v : Block) (s : State) : (respond v s).regS = s.regS := rfl
@[simp] theorem respond_sV (v : Block) (s : State) : (respond v s).sV = s.sV := rfl
@[simp] theorem respond_regKey (v : Block) (s : State) : (respond v s).regKey = s.regKey := rfl
@[simp] theorem respond_keyV (v : Block) (s : State) : (respond v s).keyV = s.keyV := rfl
@[simp] theorem respond_regCtr (v : Block) (s : State) : (respond v s).regCtr = s.regCtr := rfl
@[simp] theorem respond_ctrV (v : Block) (s : State) : (respond v s).ctrV = s.ctrV := rfl
@[simp] theorem respond_rk (v : Block) (s : State) : (respond v s).rk = s.rk := rfl
@[simp] theorem respond_rkv (v : Block) (s : State) : (respond v s).rkv = s.rkv := rfl
@[simp] theorem respond_ik (v : Block) (s : State) : (respond v s).ik = s.ik := rfl
@[simp] theorem respond_ikV (v : Block) (s : State) : (respond v s).ikV = s.ikV := rfl
@[simp] theorem respond_fatal (v : Block) (s : State) : (respond v s).fatal = s.fatal := rfl
@[simp] theorem respond_errCode (v : Block) (s : State) : (respond v s).errCode = s.errCode := rfl
@[simp] theorem respond_nBlocks (v : Block) (s : State) : (respond v s).nBlocks = s.nBlocks := rfl
@[simp] theorem respond_threads (v : Block) (s : State) : (respond v s).threads = s.threads := rfl
@[simp] theorem respond_inBase (v : Block) (s : State) : (respond v s).inBase = s.inBase := rfl
@[simp] theorem respond_outBase (v : Block) (s : State) : (respond v s).outBase = s.outBase := rfl
@[simp] theorem respond_gpuOffset (v : Block) (s : State) : (respond v s).gpuOffset = s.gpuOffset := rfl
@[simp] theorem respond_gpuTile (v : Block) (s : State) : (respond v s).gpuTile = s.gpuTile := rfl
@[simp] theorem respond_gpuTiles (v : Block) (s : State) : (respond v s).gpuTiles = s.gpuTiles := rfl
@[simp] theorem respond_lanes (v : Block) (s : State) : (respond v s).lanes = s.lanes := rfl
@[simp] theorem respond_tiler (v : Block) (s : State) : (respond v s).tiler = s.tiler := rfl
@[simp] theorem respond_mem (v : Block) (s : State) : (respond v s).mem = s.mem := rfl
@[simp] theorem respond_params (v : Block) (s : State) : (respond v s).params = s.params := rfl
@[simp] theorem respond_wdata (v : Block) (s : State) : (respond v s).wdata = s.wdata := rfl
@[simp] theorem respond_rsp (v : Block) (s : State) : (respond v s).rsp = .ok := rfl
@[simp] theorem respond_rdata (v : Block) (s : State) : (respond v s).rdata = v := rfl
@[simp] theorem respond_host (v : Block) (s : State) : (respond v s).host = s.host := rfl
@[simp] theorem respond_sched (v : Block) (s : State) : (respond v s).sched = s.sched := rfl
@[simp] theorem respond_history (v : Block) (s : State) : (respond v s).history = s.history := rfl

/-! `respondZero`. -/

@[simp] theorem respondZero_regS (s : State) : (respondZero s).regS = s.regS := rfl
@[simp] theorem respondZero_sV (s : State) : (respondZero s).sV = s.sV := rfl
@[simp] theorem respondZero_regKey (s : State) : (respondZero s).regKey = s.regKey := rfl
@[simp] theorem respondZero_keyV (s : State) : (respondZero s).keyV = s.keyV := rfl
@[simp] theorem respondZero_regCtr (s : State) : (respondZero s).regCtr = s.regCtr := rfl
@[simp] theorem respondZero_ctrV (s : State) : (respondZero s).ctrV = s.ctrV := rfl
@[simp] theorem respondZero_rk (s : State) : (respondZero s).rk = s.rk := rfl
@[simp] theorem respondZero_rkv (s : State) : (respondZero s).rkv = s.rkv := rfl
@[simp] theorem respondZero_ik (s : State) : (respondZero s).ik = s.ik := rfl
@[simp] theorem respondZero_ikV (s : State) : (respondZero s).ikV = s.ikV := rfl
@[simp] theorem respondZero_fatal (s : State) : (respondZero s).fatal = s.fatal := rfl
@[simp] theorem respondZero_errCode (s : State) : (respondZero s).errCode = s.errCode := rfl
@[simp] theorem respondZero_nBlocks (s : State) : (respondZero s).nBlocks = s.nBlocks := rfl
@[simp] theorem respondZero_threads (s : State) : (respondZero s).threads = s.threads := rfl
@[simp] theorem respondZero_inBase (s : State) : (respondZero s).inBase = s.inBase := rfl
@[simp] theorem respondZero_outBase (s : State) : (respondZero s).outBase = s.outBase := rfl
@[simp] theorem respondZero_gpuOffset (s : State) : (respondZero s).gpuOffset = s.gpuOffset := rfl
@[simp] theorem respondZero_gpuTile (s : State) : (respondZero s).gpuTile = s.gpuTile := rfl
@[simp] theorem respondZero_gpuTiles (s : State) : (respondZero s).gpuTiles = s.gpuTiles := rfl
@[simp] theorem respondZero_lanes (s : State) : (respondZero s).lanes = s.lanes := rfl
@[simp] theorem respondZero_tiler (s : State) : (respondZero s).tiler = s.tiler := rfl
@[simp] theorem respondZero_mem (s : State) : (respondZero s).mem = s.mem := rfl
@[simp] theorem respondZero_params (s : State) : (respondZero s).params = s.params := rfl
@[simp] theorem respondZero_wdata (s : State) : (respondZero s).wdata = s.wdata := rfl
@[simp] theorem respondZero_rsp (s : State) : (respondZero s).rsp = .ok := rfl
@[simp] theorem respondZero_rdata (s : State) : (respondZero s).rdata = 0#128 := rfl
@[simp] theorem respondZero_host (s : State) : (respondZero s).host = s.host := rfl
@[simp] theorem respondZero_sched (s : State) : (respondZero s).sched = s.sched := rfl
@[simp] theorem respondZero_history (s : State) : (respondZero s).history = s.history := rfl

/-! `raiseFault`. -/

@[simp] theorem raiseFault_regS (e : ErrCode) (s : State) : (raiseFault e s).regS = s.regS := rfl
@[simp] theorem raiseFault_sV (e : ErrCode) (s : State) : (raiseFault e s).sV = s.sV := rfl
@[simp] theorem raiseFault_regKey (e : ErrCode) (s : State) : (raiseFault e s).regKey = s.regKey := rfl
@[simp] theorem raiseFault_keyV (e : ErrCode) (s : State) : (raiseFault e s).keyV = s.keyV := rfl
@[simp] theorem raiseFault_regCtr (e : ErrCode) (s : State) : (raiseFault e s).regCtr = s.regCtr := rfl
@[simp] theorem raiseFault_ctrV (e : ErrCode) (s : State) : (raiseFault e s).ctrV = s.ctrV := rfl
@[simp] theorem raiseFault_rk (e : ErrCode) (s : State) : (raiseFault e s).rk = s.rk := rfl
@[simp] theorem raiseFault_rkv (e : ErrCode) (s : State) : (raiseFault e s).rkv = s.rkv := rfl
@[simp] theorem raiseFault_ik (e : ErrCode) (s : State) : (raiseFault e s).ik = s.ik := rfl
@[simp] theorem raiseFault_ikV (e : ErrCode) (s : State) : (raiseFault e s).ikV = s.ikV := rfl
@[simp] theorem raiseFault_fatal (e : ErrCode) (s : State) : (raiseFault e s).fatal = true := rfl
@[simp] theorem raiseFault_errCode (e : ErrCode) (s : State) : (raiseFault e s).errCode = errByte e := rfl
@[simp] theorem raiseFault_nBlocks (e : ErrCode) (s : State) : (raiseFault e s).nBlocks = s.nBlocks := rfl
@[simp] theorem raiseFault_threads (e : ErrCode) (s : State) : (raiseFault e s).threads = s.threads := rfl
@[simp] theorem raiseFault_inBase (e : ErrCode) (s : State) : (raiseFault e s).inBase = s.inBase := rfl
@[simp] theorem raiseFault_outBase (e : ErrCode) (s : State) : (raiseFault e s).outBase = s.outBase := rfl
@[simp] theorem raiseFault_gpuOffset (e : ErrCode) (s : State) : (raiseFault e s).gpuOffset = s.gpuOffset := rfl
@[simp] theorem raiseFault_gpuTile (e : ErrCode) (s : State) : (raiseFault e s).gpuTile = s.gpuTile := rfl
@[simp] theorem raiseFault_gpuTiles (e : ErrCode) (s : State) : (raiseFault e s).gpuTiles = s.gpuTiles := rfl
@[simp] theorem raiseFault_lanes (e : ErrCode) (s : State) : (raiseFault e s).lanes = s.lanes := rfl
@[simp] theorem raiseFault_tiler (e : ErrCode) (s : State) : (raiseFault e s).tiler = s.tiler := rfl
@[simp] theorem raiseFault_mem (e : ErrCode) (s : State) : (raiseFault e s).mem = s.mem := rfl
@[simp] theorem raiseFault_params (e : ErrCode) (s : State) : (raiseFault e s).params = s.params := rfl
@[simp] theorem raiseFault_wdata (e : ErrCode) (s : State) : (raiseFault e s).wdata = s.wdata := rfl
@[simp] theorem raiseFault_rsp (e : ErrCode) (s : State) : (raiseFault e s).rsp = .fault := rfl
@[simp] theorem raiseFault_rdata (e : ErrCode) (s : State) : (raiseFault e s).rdata = zextByte (errByte e) := rfl
@[simp] theorem raiseFault_host (e : ErrCode) (s : State) : (raiseFault e s).host = s.host := rfl
@[simp] theorem raiseFault_sched (e : ErrCode) (s : State) : (raiseFault e s).sched = s.sched := rfl
@[simp] theorem raiseFault_history (e : ErrCode) (s : State) : (raiseFault e s).history = s.history := rfl

/-! `refuse`. -/

@[simp] theorem refuse_regS (s : State) : (refuse s).regS = s.regS := rfl
@[simp] theorem refuse_sV (s : State) : (refuse s).sV = s.sV := rfl
@[simp] theorem refuse_regKey (s : State) : (refuse s).regKey = s.regKey := rfl
@[simp] theorem refuse_keyV (s : State) : (refuse s).keyV = s.keyV := rfl
@[simp] theorem refuse_regCtr (s : State) : (refuse s).regCtr = s.regCtr := rfl
@[simp] theorem refuse_ctrV (s : State) : (refuse s).ctrV = s.ctrV := rfl
@[simp] theorem refuse_rk (s : State) : (refuse s).rk = s.rk := rfl
@[simp] theorem refuse_rkv (s : State) : (refuse s).rkv = s.rkv := rfl
@[simp] theorem refuse_ik (s : State) : (refuse s).ik = s.ik := rfl
@[simp] theorem refuse_ikV (s : State) : (refuse s).ikV = s.ikV := rfl
@[simp] theorem refuse_fatal (s : State) : (refuse s).fatal = s.fatal := rfl
@[simp] theorem refuse_errCode (s : State) : (refuse s).errCode = s.errCode := rfl
@[simp] theorem refuse_nBlocks (s : State) : (refuse s).nBlocks = s.nBlocks := rfl
@[simp] theorem refuse_threads (s : State) : (refuse s).threads = s.threads := rfl
@[simp] theorem refuse_inBase (s : State) : (refuse s).inBase = s.inBase := rfl
@[simp] theorem refuse_outBase (s : State) : (refuse s).outBase = s.outBase := rfl
@[simp] theorem refuse_gpuOffset (s : State) : (refuse s).gpuOffset = s.gpuOffset := rfl
@[simp] theorem refuse_gpuTile (s : State) : (refuse s).gpuTile = s.gpuTile := rfl
@[simp] theorem refuse_gpuTiles (s : State) : (refuse s).gpuTiles = s.gpuTiles := rfl
@[simp] theorem refuse_lanes (s : State) : (refuse s).lanes = s.lanes := rfl
@[simp] theorem refuse_tiler (s : State) : (refuse s).tiler = s.tiler := rfl
@[simp] theorem refuse_mem (s : State) : (refuse s).mem = s.mem := rfl
@[simp] theorem refuse_params (s : State) : (refuse s).params = s.params := rfl
@[simp] theorem refuse_wdata (s : State) : (refuse s).wdata = s.wdata := rfl
@[simp] theorem refuse_rsp (s : State) : (refuse s).rsp = .refused := rfl
@[simp] theorem refuse_rdata (s : State) : (refuse s).rdata = zextByte s.errCode := rfl
@[simp] theorem refuse_host (s : State) : (refuse s).host = s.host := rfl
@[simp] theorem refuse_sched (s : State) : (refuse s).sched = s.sched := rfl
@[simp] theorem refuse_history (s : State) : (refuse s).history = s.history := rfl

/-! `writeS`. -/

@[simp] theorem writeS_regS (v : Block) (s : State) : (writeS v s).regS = v := rfl
@[simp] theorem writeS_sV (v : Block) (s : State) : (writeS v s).sV = true := rfl
@[simp] theorem writeS_regKey (v : Block) (s : State) : (writeS v s).regKey = s.regKey := rfl
@[simp] theorem writeS_keyV (v : Block) (s : State) : (writeS v s).keyV = s.keyV := rfl
@[simp] theorem writeS_regCtr (v : Block) (s : State) : (writeS v s).regCtr = s.regCtr := rfl
@[simp] theorem writeS_ctrV (v : Block) (s : State) : (writeS v s).ctrV = s.ctrV := rfl
@[simp] theorem writeS_rk (v : Block) (s : State) : (writeS v s).rk = s.rk := rfl
@[simp] theorem writeS_rkv (v : Block) (s : State) : (writeS v s).rkv = s.rkv := rfl
@[simp] theorem writeS_ik (v : Block) (s : State) : (writeS v s).ik = s.ik := rfl
@[simp] theorem writeS_ikV (v : Block) (s : State) : (writeS v s).ikV = s.ikV := rfl
@[simp] theorem writeS_fatal (v : Block) (s : State) : (writeS v s).fatal = s.fatal := rfl
@[simp] theorem writeS_errCode (v : Block) (s : State) : (writeS v s).errCode = s.errCode := rfl
@[simp] theorem writeS_nBlocks (v : Block) (s : State) : (writeS v s).nBlocks = s.nBlocks := rfl
@[simp] theorem writeS_threads (v : Block) (s : State) : (writeS v s).threads = s.threads := rfl
@[simp] theorem writeS_inBase (v : Block) (s : State) : (writeS v s).inBase = s.inBase := rfl
@[simp] theorem writeS_outBase (v : Block) (s : State) : (writeS v s).outBase = s.outBase := rfl
@[simp] theorem writeS_gpuOffset (v : Block) (s : State) : (writeS v s).gpuOffset = s.gpuOffset := rfl
@[simp] theorem writeS_gpuTile (v : Block) (s : State) : (writeS v s).gpuTile = s.gpuTile := rfl
@[simp] theorem writeS_gpuTiles (v : Block) (s : State) : (writeS v s).gpuTiles = s.gpuTiles := rfl
@[simp] theorem writeS_lanes (v : Block) (s : State) : (writeS v s).lanes = s.lanes := rfl
@[simp] theorem writeS_tiler (v : Block) (s : State) : (writeS v s).tiler = s.tiler := rfl
@[simp] theorem writeS_mem (v : Block) (s : State) : (writeS v s).mem = s.mem := rfl
@[simp] theorem writeS_params (v : Block) (s : State) : (writeS v s).params = s.params := rfl
@[simp] theorem writeS_wdata (v : Block) (s : State) : (writeS v s).wdata = s.wdata := rfl
@[simp] theorem writeS_rsp (v : Block) (s : State) : (writeS v s).rsp = s.rsp := rfl
@[simp] theorem writeS_rdata (v : Block) (s : State) : (writeS v s).rdata = s.rdata := rfl
@[simp] theorem writeS_host (v : Block) (s : State) : (writeS v s).host = s.host := rfl
@[simp] theorem writeS_sched (v : Block) (s : State) : (writeS v s).sched = s.sched := rfl
@[simp] theorem writeS_history (v : Block) (s : State) : (writeS v s).history = s.history := rfl

/-! `writeRk`. -/

@[simp] theorem writeRk_regS (r : Nat) (v : Block) (s : State) : (writeRk r v s).regS = s.regS := rfl
@[simp] theorem writeRk_sV (r : Nat) (v : Block) (s : State) : (writeRk r v s).sV = s.sV := rfl
@[simp] theorem writeRk_regKey (r : Nat) (v : Block) (s : State) : (writeRk r v s).regKey = s.regKey := rfl
@[simp] theorem writeRk_keyV (r : Nat) (v : Block) (s : State) : (writeRk r v s).keyV = s.keyV := rfl
@[simp] theorem writeRk_regCtr (r : Nat) (v : Block) (s : State) : (writeRk r v s).regCtr = s.regCtr := rfl
@[simp] theorem writeRk_ctrV (r : Nat) (v : Block) (s : State) : (writeRk r v s).ctrV = s.ctrV := rfl
@[simp] theorem writeRk_rk (r : Nat) (v : Block) (s : State) : (writeRk r v s).rk = setRoundKey s.rk r v := rfl
@[simp] theorem writeRk_rkv (r : Nat) (v : Block) (s : State) : (writeRk r v s).rkv = setRkv s.rkv r := rfl
@[simp] theorem writeRk_ik (r : Nat) (v : Block) (s : State) : (writeRk r v s).ik = s.ik := rfl
@[simp] theorem writeRk_ikV (r : Nat) (v : Block) (s : State) : (writeRk r v s).ikV = s.ikV := rfl
@[simp] theorem writeRk_fatal (r : Nat) (v : Block) (s : State) : (writeRk r v s).fatal = s.fatal := rfl
@[simp] theorem writeRk_errCode (r : Nat) (v : Block) (s : State) : (writeRk r v s).errCode = s.errCode := rfl
@[simp] theorem writeRk_nBlocks (r : Nat) (v : Block) (s : State) : (writeRk r v s).nBlocks = s.nBlocks := rfl
@[simp] theorem writeRk_threads (r : Nat) (v : Block) (s : State) : (writeRk r v s).threads = s.threads := rfl
@[simp] theorem writeRk_inBase (r : Nat) (v : Block) (s : State) : (writeRk r v s).inBase = s.inBase := rfl
@[simp] theorem writeRk_outBase (r : Nat) (v : Block) (s : State) : (writeRk r v s).outBase = s.outBase := rfl
@[simp] theorem writeRk_gpuOffset (r : Nat) (v : Block) (s : State) : (writeRk r v s).gpuOffset = s.gpuOffset := rfl
@[simp] theorem writeRk_gpuTile (r : Nat) (v : Block) (s : State) : (writeRk r v s).gpuTile = s.gpuTile := rfl
@[simp] theorem writeRk_gpuTiles (r : Nat) (v : Block) (s : State) : (writeRk r v s).gpuTiles = s.gpuTiles := rfl
@[simp] theorem writeRk_lanes (r : Nat) (v : Block) (s : State) : (writeRk r v s).lanes = s.lanes := rfl
@[simp] theorem writeRk_tiler (r : Nat) (v : Block) (s : State) : (writeRk r v s).tiler = s.tiler := rfl
@[simp] theorem writeRk_mem (r : Nat) (v : Block) (s : State) : (writeRk r v s).mem = s.mem := rfl
@[simp] theorem writeRk_params (r : Nat) (v : Block) (s : State) : (writeRk r v s).params = s.params := rfl
@[simp] theorem writeRk_wdata (r : Nat) (v : Block) (s : State) : (writeRk r v s).wdata = s.wdata := rfl
@[simp] theorem writeRk_rsp (r : Nat) (v : Block) (s : State) : (writeRk r v s).rsp = s.rsp := rfl
@[simp] theorem writeRk_rdata (r : Nat) (v : Block) (s : State) : (writeRk r v s).rdata = s.rdata := rfl
@[simp] theorem writeRk_host (r : Nat) (v : Block) (s : State) : (writeRk r v s).host = s.host := rfl
@[simp] theorem writeRk_sched (r : Nat) (v : Block) (s : State) : (writeRk r v s).sched = s.sched := rfl
@[simp] theorem writeRk_history (r : Nat) (v : Block) (s : State) : (writeRk r v s).history = s.history := rfl

/-! `writeSchedule`. -/

@[simp] theorem writeSchedule_regS (ks : Vector Block 11) (s : State) : (writeSchedule ks s).regS = s.regS := rfl
@[simp] theorem writeSchedule_sV (ks : Vector Block 11) (s : State) : (writeSchedule ks s).sV = s.sV := rfl
@[simp] theorem writeSchedule_regKey (ks : Vector Block 11) (s : State) : (writeSchedule ks s).regKey = s.regKey := rfl
@[simp] theorem writeSchedule_keyV (ks : Vector Block 11) (s : State) : (writeSchedule ks s).keyV = s.keyV := rfl
@[simp] theorem writeSchedule_regCtr (ks : Vector Block 11) (s : State) : (writeSchedule ks s).regCtr = s.regCtr := rfl
@[simp] theorem writeSchedule_ctrV (ks : Vector Block 11) (s : State) : (writeSchedule ks s).ctrV = s.ctrV := rfl
@[simp] theorem writeSchedule_rk (ks : Vector Block 11) (s : State) : (writeSchedule ks s).rk = ks := rfl
@[simp] theorem writeSchedule_rkv (ks : Vector Block 11) (s : State) : (writeSchedule ks s).rkv = 0x7FF#11 := rfl
@[simp] theorem writeSchedule_ik (ks : Vector Block 11) (s : State) : (writeSchedule ks s).ik = s.ik := rfl
@[simp] theorem writeSchedule_ikV (ks : Vector Block 11) (s : State) : (writeSchedule ks s).ikV = s.ikV := rfl
@[simp] theorem writeSchedule_fatal (ks : Vector Block 11) (s : State) : (writeSchedule ks s).fatal = s.fatal := rfl
@[simp] theorem writeSchedule_errCode (ks : Vector Block 11) (s : State) : (writeSchedule ks s).errCode = s.errCode := rfl
@[simp] theorem writeSchedule_nBlocks (ks : Vector Block 11) (s : State) : (writeSchedule ks s).nBlocks = s.nBlocks := rfl
@[simp] theorem writeSchedule_threads (ks : Vector Block 11) (s : State) : (writeSchedule ks s).threads = s.threads := rfl
@[simp] theorem writeSchedule_inBase (ks : Vector Block 11) (s : State) : (writeSchedule ks s).inBase = s.inBase := rfl
@[simp] theorem writeSchedule_outBase (ks : Vector Block 11) (s : State) : (writeSchedule ks s).outBase = s.outBase := rfl
@[simp] theorem writeSchedule_gpuOffset (ks : Vector Block 11) (s : State) : (writeSchedule ks s).gpuOffset = s.gpuOffset := rfl
@[simp] theorem writeSchedule_gpuTile (ks : Vector Block 11) (s : State) : (writeSchedule ks s).gpuTile = s.gpuTile := rfl
@[simp] theorem writeSchedule_gpuTiles (ks : Vector Block 11) (s : State) : (writeSchedule ks s).gpuTiles = s.gpuTiles := rfl
@[simp] theorem writeSchedule_lanes (ks : Vector Block 11) (s : State) : (writeSchedule ks s).lanes = s.lanes := rfl
@[simp] theorem writeSchedule_tiler (ks : Vector Block 11) (s : State) : (writeSchedule ks s).tiler = s.tiler := rfl
@[simp] theorem writeSchedule_mem (ks : Vector Block 11) (s : State) : (writeSchedule ks s).mem = s.mem := rfl
@[simp] theorem writeSchedule_params (ks : Vector Block 11) (s : State) : (writeSchedule ks s).params = s.params := rfl
@[simp] theorem writeSchedule_wdata (ks : Vector Block 11) (s : State) : (writeSchedule ks s).wdata = s.wdata := rfl
@[simp] theorem writeSchedule_rsp (ks : Vector Block 11) (s : State) : (writeSchedule ks s).rsp = s.rsp := rfl
@[simp] theorem writeSchedule_rdata (ks : Vector Block 11) (s : State) : (writeSchedule ks s).rdata = s.rdata := rfl
@[simp] theorem writeSchedule_host (ks : Vector Block 11) (s : State) : (writeSchedule ks s).host = s.host := rfl
@[simp] theorem writeSchedule_sched (ks : Vector Block 11) (s : State) : (writeSchedule ks s).sched = s.sched := rfl
@[simp] theorem writeSchedule_history (ks : Vector Block 11) (s : State) : (writeSchedule ks s).history = s.history := rfl

/-! `record`. -/

@[simp] theorem record_regS (es : List Event) (s : State) : (record es s).regS = s.regS := rfl
@[simp] theorem record_sV (es : List Event) (s : State) : (record es s).sV = s.sV := rfl
@[simp] theorem record_regKey (es : List Event) (s : State) : (record es s).regKey = s.regKey := rfl
@[simp] theorem record_keyV (es : List Event) (s : State) : (record es s).keyV = s.keyV := rfl
@[simp] theorem record_regCtr (es : List Event) (s : State) : (record es s).regCtr = s.regCtr := rfl
@[simp] theorem record_ctrV (es : List Event) (s : State) : (record es s).ctrV = s.ctrV := rfl
@[simp] theorem record_rk (es : List Event) (s : State) : (record es s).rk = s.rk := rfl
@[simp] theorem record_rkv (es : List Event) (s : State) : (record es s).rkv = s.rkv := rfl
@[simp] theorem record_ik (es : List Event) (s : State) : (record es s).ik = s.ik := rfl
@[simp] theorem record_ikV (es : List Event) (s : State) : (record es s).ikV = s.ikV := rfl
@[simp] theorem record_fatal (es : List Event) (s : State) : (record es s).fatal = s.fatal := rfl
@[simp] theorem record_errCode (es : List Event) (s : State) : (record es s).errCode = s.errCode := rfl
@[simp] theorem record_nBlocks (es : List Event) (s : State) : (record es s).nBlocks = s.nBlocks := rfl
@[simp] theorem record_threads (es : List Event) (s : State) : (record es s).threads = s.threads := rfl
@[simp] theorem record_inBase (es : List Event) (s : State) : (record es s).inBase = s.inBase := rfl
@[simp] theorem record_outBase (es : List Event) (s : State) : (record es s).outBase = s.outBase := rfl
@[simp] theorem record_gpuOffset (es : List Event) (s : State) : (record es s).gpuOffset = s.gpuOffset := rfl
@[simp] theorem record_gpuTile (es : List Event) (s : State) : (record es s).gpuTile = s.gpuTile := rfl
@[simp] theorem record_gpuTiles (es : List Event) (s : State) : (record es s).gpuTiles = s.gpuTiles := rfl
@[simp] theorem record_lanes (es : List Event) (s : State) : (record es s).lanes = s.lanes := rfl
@[simp] theorem record_tiler (es : List Event) (s : State) : (record es s).tiler = s.tiler := rfl
@[simp] theorem record_mem (es : List Event) (s : State) : (record es s).mem = s.mem := rfl
@[simp] theorem record_params (es : List Event) (s : State) : (record es s).params = s.params := rfl
@[simp] theorem record_wdata (es : List Event) (s : State) : (record es s).wdata = s.wdata := rfl
@[simp] theorem record_rsp (es : List Event) (s : State) : (record es s).rsp = s.rsp := rfl
@[simp] theorem record_rdata (es : List Event) (s : State) : (record es s).rdata = s.rdata := rfl
@[simp] theorem record_host (es : List Event) (s : State) : (record es s).host = s.host := rfl
@[simp] theorem record_sched (es : List Event) (s : State) : (record es s).sched = s.sched := rfl
@[simp] theorem record_history (es : List Event) (s : State) : (record es s).history = es ++ s.history := rfl

/-! `present`. -/

@[simp] theorem present_regS (w : Block) (h : List HostMove) (s : State) : (present w h s).regS = s.regS := rfl
@[simp] theorem present_sV (w : Block) (h : List HostMove) (s : State) : (present w h s).sV = s.sV := rfl
@[simp] theorem present_regKey (w : Block) (h : List HostMove) (s : State) : (present w h s).regKey = s.regKey := rfl
@[simp] theorem present_keyV (w : Block) (h : List HostMove) (s : State) : (present w h s).keyV = s.keyV := rfl
@[simp] theorem present_regCtr (w : Block) (h : List HostMove) (s : State) : (present w h s).regCtr = s.regCtr := rfl
@[simp] theorem present_ctrV (w : Block) (h : List HostMove) (s : State) : (present w h s).ctrV = s.ctrV := rfl
@[simp] theorem present_rk (w : Block) (h : List HostMove) (s : State) : (present w h s).rk = s.rk := rfl
@[simp] theorem present_rkv (w : Block) (h : List HostMove) (s : State) : (present w h s).rkv = s.rkv := rfl
@[simp] theorem present_ik (w : Block) (h : List HostMove) (s : State) : (present w h s).ik = s.ik := rfl
@[simp] theorem present_ikV (w : Block) (h : List HostMove) (s : State) : (present w h s).ikV = s.ikV := rfl
@[simp] theorem present_fatal (w : Block) (h : List HostMove) (s : State) : (present w h s).fatal = s.fatal := rfl
@[simp] theorem present_errCode (w : Block) (h : List HostMove) (s : State) : (present w h s).errCode = s.errCode := rfl
@[simp] theorem present_nBlocks (w : Block) (h : List HostMove) (s : State) : (present w h s).nBlocks = s.nBlocks := rfl
@[simp] theorem present_threads (w : Block) (h : List HostMove) (s : State) : (present w h s).threads = s.threads := rfl
@[simp] theorem present_inBase (w : Block) (h : List HostMove) (s : State) : (present w h s).inBase = s.inBase := rfl
@[simp] theorem present_outBase (w : Block) (h : List HostMove) (s : State) : (present w h s).outBase = s.outBase := rfl
@[simp] theorem present_gpuOffset (w : Block) (h : List HostMove) (s : State) : (present w h s).gpuOffset = s.gpuOffset := rfl
@[simp] theorem present_gpuTile (w : Block) (h : List HostMove) (s : State) : (present w h s).gpuTile = s.gpuTile := rfl
@[simp] theorem present_gpuTiles (w : Block) (h : List HostMove) (s : State) : (present w h s).gpuTiles = s.gpuTiles := rfl
@[simp] theorem present_lanes (w : Block) (h : List HostMove) (s : State) : (present w h s).lanes = s.lanes := rfl
@[simp] theorem present_tiler (w : Block) (h : List HostMove) (s : State) : (present w h s).tiler = s.tiler := rfl
@[simp] theorem present_mem (w : Block) (h : List HostMove) (s : State) : (present w h s).mem = s.mem := rfl
@[simp] theorem present_params (w : Block) (h : List HostMove) (s : State) : (present w h s).params = s.params := rfl
@[simp] theorem present_wdata (w : Block) (h : List HostMove) (s : State) : (present w h s).wdata = w := rfl
@[simp] theorem present_rsp (w : Block) (h : List HostMove) (s : State) : (present w h s).rsp = s.rsp := rfl
@[simp] theorem present_rdata (w : Block) (h : List HostMove) (s : State) : (present w h s).rdata = s.rdata := rfl
@[simp] theorem present_host (w : Block) (h : List HostMove) (s : State) : (present w h s).host = h := rfl
@[simp] theorem present_sched (w : Block) (h : List HostMove) (s : State) : (present w h s).sched = s.sched := rfl
@[simp] theorem present_history (w : Block) (h : List HostMove) (s : State) : (present w h s).history = s.history := rfl

/-! `pushCommand`. -/

@[simp] theorem pushCommand_regS (w : CmdWord) (s : State) : (pushCommand w s).regS = s.regS := rfl
@[simp] theorem pushCommand_sV (w : CmdWord) (s : State) : (pushCommand w s).sV = s.sV := rfl
@[simp] theorem pushCommand_regKey (w : CmdWord) (s : State) : (pushCommand w s).regKey = s.regKey := rfl
@[simp] theorem pushCommand_keyV (w : CmdWord) (s : State) : (pushCommand w s).keyV = s.keyV := rfl
@[simp] theorem pushCommand_regCtr (w : CmdWord) (s : State) : (pushCommand w s).regCtr = s.regCtr := rfl
@[simp] theorem pushCommand_ctrV (w : CmdWord) (s : State) : (pushCommand w s).ctrV = s.ctrV := rfl
@[simp] theorem pushCommand_rk (w : CmdWord) (s : State) : (pushCommand w s).rk = s.rk := rfl
@[simp] theorem pushCommand_rkv (w : CmdWord) (s : State) : (pushCommand w s).rkv = s.rkv := rfl
@[simp] theorem pushCommand_ik (w : CmdWord) (s : State) : (pushCommand w s).ik = s.ik := rfl
@[simp] theorem pushCommand_ikV (w : CmdWord) (s : State) : (pushCommand w s).ikV = s.ikV := rfl
@[simp] theorem pushCommand_fatal (w : CmdWord) (s : State) : (pushCommand w s).fatal = s.fatal := rfl
@[simp] theorem pushCommand_errCode (w : CmdWord) (s : State) : (pushCommand w s).errCode = s.errCode := rfl
@[simp] theorem pushCommand_nBlocks (w : CmdWord) (s : State) : (pushCommand w s).nBlocks = s.nBlocks := rfl
@[simp] theorem pushCommand_threads (w : CmdWord) (s : State) : (pushCommand w s).threads = s.threads := rfl
@[simp] theorem pushCommand_inBase (w : CmdWord) (s : State) : (pushCommand w s).inBase = s.inBase := rfl
@[simp] theorem pushCommand_outBase (w : CmdWord) (s : State) : (pushCommand w s).outBase = s.outBase := rfl
@[simp] theorem pushCommand_gpuOffset (w : CmdWord) (s : State) : (pushCommand w s).gpuOffset = s.gpuOffset := rfl
@[simp] theorem pushCommand_gpuTile (w : CmdWord) (s : State) : (pushCommand w s).gpuTile = s.gpuTile := rfl
@[simp] theorem pushCommand_gpuTiles (w : CmdWord) (s : State) : (pushCommand w s).gpuTiles = s.gpuTiles := rfl
@[simp] theorem pushCommand_lanes (w : CmdWord) (s : State) : (pushCommand w s).lanes = s.lanes := rfl
@[simp] theorem pushCommand_tiler (w : CmdWord) (s : State) : (pushCommand w s).tiler = s.tiler := rfl
@[simp] theorem pushCommand_mem (w : CmdWord) (s : State) : (pushCommand w s).mem = s.mem := rfl
@[simp] theorem pushCommand_params (w : CmdWord) (s : State) : (pushCommand w s).params = s.params := rfl
@[simp] theorem pushCommand_wdata (w : CmdWord) (s : State) : (pushCommand w s).wdata = s.wdata := rfl
@[simp] theorem pushCommand_rsp (w : CmdWord) (s : State) : (pushCommand w s).rsp = s.rsp := rfl
@[simp] theorem pushCommand_rdata (w : CmdWord) (s : State) : (pushCommand w s).rdata = s.rdata := rfl
@[simp] theorem pushCommand_host (w : CmdWord) (s : State) : (pushCommand w s).host = .command w s.wdata :: s.host := rfl
@[simp] theorem pushCommand_sched (w : CmdWord) (s : State) : (pushCommand w s).sched = s.sched := rfl
@[simp] theorem pushCommand_history (w : CmdWord) (s : State) : (pushCommand w s).history = s.history := rfl

/-! `resetCore`. -/

@[simp] theorem resetCore_regS (s : State) : (resetCore s).regS = 0#128 := rfl
@[simp] theorem resetCore_sV (s : State) : (resetCore s).sV = false := rfl
@[simp] theorem resetCore_regKey (s : State) : (resetCore s).regKey = 0#128 := rfl
@[simp] theorem resetCore_keyV (s : State) : (resetCore s).keyV = false := rfl
@[simp] theorem resetCore_regCtr (s : State) : (resetCore s).regCtr = 0#128 := rfl
@[simp] theorem resetCore_ctrV (s : State) : (resetCore s).ctrV = false := rfl
@[simp] theorem resetCore_rk (s : State) : (resetCore s).rk = Vector.replicate 11 0#128 := rfl
@[simp] theorem resetCore_rkv (s : State) : (resetCore s).rkv = 0#11 := rfl
@[simp] theorem resetCore_ik (s : State) : (resetCore s).ik = Vector.replicate 11 0#128 := rfl
@[simp] theorem resetCore_ikV (s : State) : (resetCore s).ikV = false := rfl
@[simp] theorem resetCore_fatal (s : State) : (resetCore s).fatal = false := rfl
@[simp] theorem resetCore_errCode (s : State) : (resetCore s).errCode = 0x00#8 := rfl
@[simp] theorem resetCore_nBlocks (s : State) : (resetCore s).nBlocks = 0#64 := rfl
@[simp] theorem resetCore_threads (s : State) : (resetCore s).threads = 0#64 := rfl
@[simp] theorem resetCore_inBase (s : State) : (resetCore s).inBase = 0#64 := rfl
@[simp] theorem resetCore_outBase (s : State) : (resetCore s).outBase = 0#64 := rfl
@[simp] theorem resetCore_gpuOffset (s : State) : (resetCore s).gpuOffset = 0#64 := rfl
@[simp] theorem resetCore_gpuTile (s : State) : (resetCore s).gpuTile = 0#64 := rfl
@[simp] theorem resetCore_gpuTiles (s : State) : (resetCore s).gpuTiles = 0#64 := rfl
@[simp] theorem resetCore_lanes (s : State) : (resetCore s).lanes = [] := rfl
@[simp] theorem resetCore_tiler (s : State) : (resetCore s).tiler = none := rfl
@[simp] theorem resetCore_mem (s : State) : (resetCore s).mem = s.mem := rfl
@[simp] theorem resetCore_params (s : State) : (resetCore s).params = s.params := rfl
@[simp] theorem resetCore_wdata (s : State) : (resetCore s).wdata = s.wdata := rfl
@[simp] theorem resetCore_rsp (s : State) : (resetCore s).rsp = .ok := rfl
@[simp] theorem resetCore_rdata (s : State) : (resetCore s).rdata = 0#128 := rfl
@[simp] theorem resetCore_host (s : State) : (resetCore s).host = s.host := rfl
@[simp] theorem resetCore_sched (s : State) : (resetCore s).sched = s.sched := rfl
@[simp] theorem resetCore_history (s : State) : (resetCore s).history = s.history := rfl

/-! `writeCfg`: a configuration register and nothing else. -/

theorem writeCfg_frame (q : CfgReg) (v : Word64) (s : State) :
    writeCfg q v s =
      { s with
        nBlocks := (writeCfg q v s).nBlocks, threads := (writeCfg q v s).threads,
        inBase := (writeCfg q v s).inBase, outBase := (writeCfg q v s).outBase } := by
  cases q <;> rfl

end Sys2Proof.Machine
end

