-- ==== Sys2Proof/Laws/Ops.lean ====
section
/-! SUPPORT. One lemma for each shared operation: everything it can do, so that no proof unfolds it. -/

namespace Sys2Proof.Machine

/-! The frame of a command. -/

/-- What a command answers: refused in the fatal state, else its body's state; never a stop. -/
theorem command_next {body : State → State} {s t : State} (h : command body s = .next t) :
    (s.fatal = true ∧ t = refuse s) ∨ (s.fatal = false ∧ t = body s) := by
  simp only [command, Host.Outcome.next.injEq] at h
  cases hf : s.fatal <;> simp [hf] at h <;> simp [h]

@[simp] theorem command_live {body : State → State} {s : State} (h : s.fatal = false) :
    command body s = .next (body s) := by simp [command, h]

@[simp] theorem command_fatal {body : State → State} {s : State} (h : s.fatal = true) :
    command body s = .next (refuse s) := by simp [command, h]

@[simp] theorem commandAlways_eq (body : State → State) (s : State) : commandAlways body s = .next (body s) := rfl

theorem legal_cases (ok : Bool) (body : State → State) (s : State) :
    (ok = true ∧ legal ok body s = body s) ∨ (ok = false ∧ legal ok body s = raiseFault .illegalCmd s) := by
  cases ok <;> simp [legal]

@[simp] theorem legal_true {ok : Bool} {body : State → State} {s : State} (h : ok = true) :
    legal ok body s = body s := by simp [legal, h]

@[simp] theorem legal_false {ok : Bool} {body : State → State} {s : State} (h : ok = false) :
    legal ok body s = raiseFault .illegalCmd s := by simp [legal, h]

theorem require_cases (valid : State → Bool) (body : State → State) (s : State) :
    (valid s = true ∧ require valid body s = body s) ∨
      (valid s = false ∧ require valid body s = raiseFault .uninit s) := by
  cases h : valid s <;> simp [require, h]

@[simp] theorem require_true {valid : State → Bool} {body : State → State} {s : State} (h : valid s = true) :
    require valid body s = body s := by simp [require, h]

@[simp] theorem require_false {valid : State → Bool} {body : State → State} {s : State} (h : valid s = false) :
    require valid body s = raiseFault .uninit s := by simp [require, h]

theorem check_cases (ok : State → Bool) (e : ErrCode) (body : State → State) (s : State) :
    (ok s = true ∧ check ok e body s = body s) ∨ (ok s = false ∧ check ok e body s = raiseFault e s) := by
  cases h : ok s <;> simp [check, h]

@[simp] theorem check_true {ok : State → Bool} {e : ErrCode} {body : State → State} {s : State} (h : ok s = true) :
    check ok e body s = body s := by simp [check, h]

@[simp] theorem check_false {ok : State → Bool} {e : ErrCode} {body : State → State} {s : State}
    (h : ok s = false) : check ok e body s = raiseFault e s := by simp [check, h]

/-- Both buffers end at or below the top of the address space (spec/20_memory.md R55). -/
theorem buffersInRange_iff (s : State) :
    buffersInRange s = true ↔ inAddr s (numBlocks s) ≤ 2 ^ 64 ∧ outAddr s (numBlocks s) ≤ 2 ^ 64 := by
  simp [buffersInRange]

/-- A block of a buffer in range ends at or below the top of the address space: the second test of
spec/47_host_commands.md R223 and R224 fails only where the test of spec/20_memory.md R55 does. -/
theorem blockEnd_of_buffersInRange {s : State} {i : Nat} (h : buffersInRange s = true) (hi : i < numBlocks s) :
    inAddr s (i + 1) ≤ 2 ^ 64 ∧ outAddr s (i + 1) ≤ 2 ^ 64 := by
  rw [buffersInRange_iff] at h
  simp only [inAddr, outAddr] at h ⊢
  omega

/-- A single-block access runs when all its range tests hold, and else raises `E_RANGE`. -/
theorem blockAccess_cases (addr : State → Nat → Nat) (i : Nat) (body : State → State) (s : State) :
    ((i < numBlocks s ∧ addr s (i + 1) ≤ 2 ^ 64 ∧ buffersInRange s = true) ∧ blockAccess addr i body s = body s) ∨
      (¬ (i < numBlocks s ∧ addr s (i + 1) ≤ 2 ^ 64 ∧ buffersInRange s = true) ∧
        blockAccess addr i body s = raiseFault .range s) := by
  by_cases h : i < numBlocks s
  · by_cases h' : addr s (i + 1) ≤ 2 ^ 64
    · cases h'' : buffersInRange s <;> simp only [blockAccess, check, h, h', h''] <;> simp
    · exact .inr ⟨fun hc => h' hc.2.1, by simp only [blockAccess, check, h, h']; simp⟩
  · exact .inr ⟨fun hc => h hc.1, by simp only [blockAccess, check, h]; simp⟩

/-- No test of a list fails exactly when every test holds. -/
theorem firstFailure_none_iff (l : List (Bool × ErrCode)) :
    firstFailure l = none ↔ ∀ q ∈ l, q.1 = true := by
  induction l with
  | nil => simp [firstFailure]
  | cons q rest ih =>
    obtain ⟨ok, e⟩ := q
    cases ok <;> simp [firstFailure, ih]

/-- The first failure is a failing test whose predecessors all hold. -/
theorem firstFailure_some_iff (l : List (Bool × ErrCode)) (e : ErrCode) :
    firstFailure l = some e ↔ ∃ a b, l = a ++ (false, e) :: b ∧ ∀ q ∈ a, q.1 = true := by
  induction l with
  | nil => simp [firstFailure]
  | cons q rest ih =>
    obtain ⟨ok, e'⟩ := q
    cases ok with
    | true =>
      simp only [firstFailure, if_true, ih]
      constructor
      · rintro ⟨a, b, rfl, ha⟩
        exact ⟨(true, e') :: a, b, rfl, by simpa using ha⟩
      · rintro ⟨a, b, hl, ha⟩
        cases a with
        | nil => simp at hl
        | cons q a =>
          simp only [List.cons_append, List.cons.injEq] at hl
          exact ⟨a, b, hl.2, fun q hq => ha q (List.mem_cons_of_mem _ hq)⟩
    | false =>
      simp only [firstFailure]
      constructor
      · intro h
        simp only [Bool.false_eq_true, if_false, Option.some.injEq] at h
        exact ⟨[], rest, by simp [h], by simp⟩
      · rintro ⟨a, b, hl, ha⟩
        cases a with
        | nil => simp_all
        | cons q a =>
          simp only [List.cons_append, List.cons.injEq] at hl
          have := ha q List.mem_cons_self
          rw [← hl.1] at this
          simp at this

theorem checkAll_cases (tests : State → List (Bool × ErrCode)) (body : State → State) (s : State) :
    (firstFailure (tests s) = none ∧ checkAll tests body s = body s) ∨
      (∃ e, firstFailure (tests s) = some e ∧ checkAll tests body s = raiseFault e s) := by
  cases h : firstFailure (tests s) <;> simp [checkAll, h]

/-! Register operations. -/

/-- Bit `r` of `RKV` is set by the write of round key `r`, and no other bit changes (spec/10_state.md R29). -/
theorem setRkv_getLsbD (v : BitVec 11) {r j : Nat} (hj : j ≤ 10) :
    (setRkv v r).getLsbD j = (v.getLsbD j || decide (j = r)) := by
  simp only [setRkv, BitVec.getLsbD_or, BitVec.getLsbD_shiftLeft]
  rcases Nat.lt_trichotomy j r with h | h | h
  · simp [h, show j ≠ r by omega]
  · subst h; simp [show j < 11 by omega]
  · simp [show ¬ j < r by omega, show j ≠ r by omega, show j - r ≠ 0 by omega]

/-- The whole schedule is valid exactly when all eleven bits are set (spec/10_state.md R24). -/
theorem ksValid_iff (s : State) : ksValid s = true ↔ ∀ r, r ≤ 10 → rkValid s r = true := by
  simp only [ksValid, rkValid, beq_iff_eq]
  constructor
  · intro h r hr
    rw [h]
    interval_cases r <;> rfl
  · intro h
    apply BitVec.eq_of_getLsbD_eq
    intro i hi
    rw [h i (by omega)]
    interval_cases i <;> rfl

/-- What the in-place transformations do. -/
theorem transformS_cases (f : State → Block → Block) (s : State) :
    (s.sV = true ∧ transformS f s = { s with regS := f s s.regS, rsp := .ok, rdata := 0#128 }) ∨
      (s.sV = false ∧ transformS f s = raiseFault .uninit s) := by
  cases h : s.sV <;> simp [transformS, require, h, respondZero, respond]

/-! The choice of the next agent. -/

/-- The picked agent is one of those that may step. -/
theorem pick_mem {sched enabled : List Nat} {t : Nat} (h : pick sched enabled = some t) : t ∈ enabled :=
  List.mem_of_getElem? h

/-- There is a picked agent exactly when one may step. -/
theorem pick_eq_none_iff {sched enabled : List Nat} : pick sched enabled = none ↔ enabled = [] := by
  constructor
  · intro h
    rw [pick, List.getElem?_eq_none_iff] at h
    by_contra hne
    have : 0 < enabled.length := List.length_pos_iff.mpr hne
    have := Nat.mod_lt (sched.headD 0) this
    omega
  · rintro rfl
    rfl

/-- A property each `f i` keeps is kept by all of them in turn. -/
theorem forUpTo_keeps {f : Nat → State → State} {P : State → Prop} (hf : ∀ i s, P s → P (f i s)) (n : Nat)
    {s : State} (hs : P s) : P (forUpTo f n s) := by
  induction n with
  | zero => exact hs
  | succ n ih => exact hf n _ ih

/-! The command port. -/

theorem step_idle {s : State} (h : s.host = []) : step s = .next s := by simp [step, takeMove, h]

theorem step_command {s : State} {cmd : CmdWord} {w : Block} {rest : List HostMove}
    (h : s.host = .command cmd w :: rest) : step s = issue cmd (present w rest s) := by simp [step, takeMove, h]

theorem step_rst {s : State} {rest : List HostMove} (h : s.host = .rst :: rest) :
    step s = .next (resetCore { s with host := rest }) := by simp [step, takeMove, h]

theorem step_store {s : State} {addr : Word64} {b : Byte} {rest : List HostMove}
    (h : s.host = .store addr b :: rest) :
    step s = .next { s with host := rest, mem := s.mem.write addr.toNat b } := by simp [step, takeMove, h]

theorem issue_ok {cmd : CmdWord} {i : Instr} {s : State} (h : decode cmd = .ok i) : issue cmd s = exec i s := by
  simp [issue, h]

theorem issue_error {cmd : CmdWord} {e : Illegal} {s : State} (h : decode cmd = .error e) :
    issue cmd s = illegalCommand s := by simp [issue, h]

end Sys2Proof.Machine
end

