-- ==== Sys2Proof/Laws/Bulk.lean ====
section
/-! SUPPORT. The laws of the bulk commands: what each of their operations can change, what a lane and a
work-item do, and how many steps they take. -/

namespace Sys2Proof.Machine

/-! The partitioner: what its operations can change. -/

/-- `t` is `s` but for memory, the lanes, `sched` and the history. -/
def LaneFrame (s t : State) : Prop :=
  t = { s with mem := t.mem, lanes := t.lanes, sched := t.sched, history := t.history }

theorem LaneFrame.refl (s : State) : LaneFrame s s := rfl

theorem LaneFrame.trans {s t u : State} (h : LaneFrame s t) (h' : LaneFrame t u) : LaneFrame s u := by
  unfold LaneFrame at *
  rw [h'] at *
  rw [h]

/-- A step of a lane changes memory, the lanes and the history only. -/
theorem laneStep_frame (c v : Bool) (t : Nat) (s : State) : LaneFrame s (laneStep c v t s) := by
  unfold laneStep
  split
  · rfl
  · split_ifs <;> rfl

/-- The run of the lanes changes memory, the lanes, the history and `sched` only. -/
theorem runLanes_frame (c v : Bool) (n : Nat) (s : State) : LaneFrame s (runLanes c v n s) := by
  induction n generalizing s with
  | zero => rfl
  | succ n ih =>
    rw [runLanes]
    split
    · rfl
    · have h : LaneFrame s { s with sched := s.sched.tail } := rfl
      exact (h.trans (laneStep_frame c v _ _)).trans (ih _)

/-- A `PARENC` that runs changes memory, the history and `sched` only, and leaves no lane. -/
theorem parencRun_frame (c v : Bool) (s : State) : LaneFrame s (parencRun c v s) := by
  have h : LaneFrame s (createLanes s) := rfl
  have h' : ∀ u, LaneFrame u (joinLanes u) := fun _ => rfl
  exact (h.trans (runLanes_frame c v _ _)).trans (h' _)

@[simp] theorem parencRun_lanes (c v : Bool) (s : State) : (parencRun c v s).lanes = [] := rfl

/-! The partitioner: what a lane does. -/

/-- Lane `t` is enabled exactly when it exists and has blocks left (spec/45_parallel_partitioner.md R181). -/
theorem laneEnabled_iff (s : State) (t : Nat) :
    laneEnabled s t = true ↔ ∃ l, s.lanes[t]? = some l ∧ l.next < l.count := by
  unfold laneEnabled
  split <;> simp_all

theorem mem_enabledLanes (s : State) (t : Nat) :
    t ∈ enabledLanes s ↔ ∃ l, s.lanes[t]? = some l ∧ l.next < l.count := by
  simp only [enabledLanes, List.mem_filter, List.mem_range, laneEnabled_iff]
  constructor
  · exact fun h => h.2
  · rintro ⟨l, h, hl⟩
    exact ⟨(List.getElem?_eq_some_iff.mp h).1, l, h, hl⟩

/-- The step of an enabled lane is the block operation of its next block. -/
theorem laneStep_enabled (c v : Bool) {t : Nat} {s : State} {l : Lane} (h : s.lanes[t]? = some l)
    (hl : l.next < l.count) : laneStep c v t s = laneBlock c v t l (l.start + l.next) s := by
  simp [laneStep, h, hl]

/-- The lanes at their creation (spec/45_parallel_partitioner.md R180). -/
theorem createLanes_getElem? (s : State) (t : Nat) :
    (createLanes s).lanes[t]? = if t < s.threads.toNat then some (newLane (perLane s) t) else none := by
  by_cases h : t < s.threads.toNat <;> simp [createLanes, h]

/-! The tiler: what its operations can change. -/

/-- `t` is `s` but for memory, the tiler, `sched` and the history. -/
def TilerFrame (s t : State) : Prop :=
  t = { s with mem := t.mem, tiler := t.tiler, sched := t.sched, history := t.history }

theorem TilerFrame.refl (s : State) : TilerFrame s s := rfl

theorem TilerFrame.trans {s t u : State} (h : TilerFrame s t) (h' : TilerFrame t u) : TilerFrame s u := by
  unfold TilerFrame at *
  rw [h'] at *
  rw [h]

theorem onTiler_frame {f : Tiler → State → State} (hf : ∀ q s, TilerFrame s (f q s)) (s : State) :
    TilerFrame s (onTiler f s) := by
  unfold onTiler
  split
  · exact TilerFrame.refl s
  · exact hf _ s

theorem forUpTo_frame {f : Nat → State → State} (hf : ∀ i s, TilerFrame s (f i s)) (n : Nat) (s : State) :
    TilerFrame s (forUpTo f n s) := by
  induction n with
  | zero => exact TilerFrame.refl s
  | succ n ih => exact ih.trans (hf n _)

theorem startTile_frame (s : State) : TilerFrame s (startTile s) :=
  onTiler_frame (fun _ _ => by rfl) s

theorem loadBlock_frame (i : Nat) (s : State) : TilerFrame s (loadBlock i s) :=
  onTiler_frame (fun _ _ => by rfl) s

theorem loadTile_frame (s : State) : TilerFrame s (loadTile s) :=
  onTiler_frame (fun _ s => forUpTo_frame loadBlock_frame _ s) s

theorem setArgOffset_frame (s : State) : TilerFrame s (setArgOffset s) :=
  onTiler_frame (fun _ _ => by rfl) s

theorem launchKernel_frame (s : State) : TilerFrame s (launchKernel s) :=
  onTiler_frame (fun _ _ => by rfl) s

theorem workItem_frame (c : Bool) (i : Nat) (s : State) : TilerFrame s (workItem c i s) :=
  onTiler_frame (fun _ _ => by rfl) s

theorem runItems_frame (c : Bool) (n : Nat) (s : State) : TilerFrame s (runItems c n s) := by
  induction n generalizing s with
  | zero => exact TilerFrame.refl s
  | succ n ih =>
    rw [runItems]
    split
    · exact TilerFrame.refl s
    · have h : TilerFrame s { s with sched := s.sched.tail } := rfl
      exact (h.trans (workItem_frame c _ _)).trans (ih _)

theorem runKernel_frame (c : Bool) (s : State) : TilerFrame s (runKernel c s) :=
  (launchKernel_frame s).trans (onTiler_frame (fun q s => (runItems_frame c q.tile s).trans (by rfl)) _)

theorem readBackBlock_frame (i : Nat) (s : State) : TilerFrame s (readBackBlock i s) :=
  onTiler_frame (fun _ _ => by rfl) s

theorem readBack_frame (s : State) : TilerFrame s (readBack s) :=
  onTiler_frame (fun _ s => forUpTo_frame readBackBlock_frame _ s) s

theorem advanceTile_frame (s : State) : TilerFrame s (advanceTile s) :=
  onTiler_frame (fun _ _ => by rfl) s

/-- A tile changes memory, the tiler, `sched` and the history only. -/
theorem oneTile_frame (c : Bool) (s : State) : TilerFrame s (oneTile c s) :=
  (startTile_frame s).trans ((loadTile_frame _).trans ((setArgOffset_frame _).trans
    ((runKernel_frame c _).trans ((readBack_frame _).trans (advanceTile_frame _)))))

theorem runTiles_frame (c : Bool) (n : Nat) (s : State) : TilerFrame s (runTiles c n s) := by
  induction n generalizing s with
  | zero => exact TilerFrame.refl s
  | succ n ih =>
    rw [runTiles]
    split_ifs
    · exact (oneTile_frame c s).trans (ih _)
    · exact TilerFrame.refl s

theorem tilerSetUp_frame (s : State) : TilerFrame s (tilerSetUp s) := rfl

/-- The tiles of a `GPUDISP`, set-up included. -/
theorem gpuTiles_frame (c : Bool) (s : State) :
    TilerFrame s (runTiles c (numBlocks s) (tilerSetUp s)) :=
  (tilerSetUp_frame s).trans (runTiles_frame c _ _)

/-- A `GPUDISP` that runs changes memory, the progress registers, the tiler, `sched` and the history only. -/
theorem gpuRun_frame (c : Bool) (s : State) :
    gpuRun c s =
      { s with
        mem := (gpuRun c s).mem
        tiler := (gpuRun c s).tiler
        gpuOffset := (gpuRun c s).gpuOffset
        gpuTile := (gpuRun c s).gpuTile
        gpuTiles := (gpuRun c s).gpuTiles
        history := (gpuRun c s).history
        sched := (gpuRun c s).sched } := by
  have h := gpuTiles_frame c s
  unfold gpuRun
  generalize runTiles c (numBlocks s) (tilerSetUp s) = t at h
  rw [TilerFrame] at h
  unfold tilerFinish onTiler
  split <;> rw [h]

end Sys2Proof.Machine
end

