-- ==== Sys2Proof/Laws/Decode.lean ====
section
/-! SUPPORT. The laws of the fields of a command word: what the encoder puts in, the decoder takes out. -/

namespace Sys2Proof

/-- The opcode field of a word made of an opcode and an operand field. -/
@[simp] theorem extract_opcode (op : Byte) (x : BitVec 24) :
    ((op ++ x : CmdWord)).extractLsb' 24 8 = op := by
  apply BitVec.eq_of_getLsbD_eq
  intro i hi
  simp only [BitVec.getLsbD_extractLsb', BitVec.getLsbD_append]
  simp [hi]

/-- The operand field of a word made of an opcode and an operand field. -/
@[simp] theorem extract_operand (op : Byte) (x : BitVec 24) :
    ((op ++ x : CmdWord)).extractLsb' 0 24 = x := by
  apply BitVec.eq_of_getLsbD_eq
  intro i hi
  simp only [BitVec.getLsbD_extractLsb', BitVec.getLsbD_append]
  simp [hi]

/-- A word is made of its opcode and its operand field. -/
theorem append_fields (w : CmdWord) : (w.extractLsb' 24 8 ++ w.extractLsb' 0 24 : CmdWord) = w := by
  apply BitVec.eq_of_getLsbD_eq
  intro i hi
  simp only [BitVec.getLsbD_append, BitVec.getLsbD_extractLsb']
  split_ifs with h
  · simp [h]
  · have h2 : i - 24 < 8 := by omega
    have e : 24 + (i - 24) = i := by omega
    simp [h2, e]

/-- The decoder on a word given by its fields. -/
@[simp] theorem decode_append (op : Byte) (x : BitVec 24) : decode (op ++ x) = decodeOp op x := by
  rw [decode, extract_opcode, extract_operand]

/-- Every register is found by its number. -/
@[simp] theorem cfgRegOf_sel (q : CfgReg) : cfgRegOf q.sel = some q := by cases q <;> rfl

/-- A register found by a number has that number. -/
theorem sel_of_cfgRegOf {b : Byte} {q : CfgReg} (h : cfgRegOf b = some q) : q.sel = b := by
  unfold cfgRegOf at h
  split at h <;> first | (cases h; rfl) | contradiction

theorem decodeZ_ok_iff {i j : Instr} {x : BitVec 24} : decodeZ i x = .ok j ↔ x = 0#24 ∧ i = j := by
  unfold decodeZ; split_ifs with h <;> simp [h]

end Sys2Proof
end

