-- ==== Sys2Proof/Laws/PerInstr.lean ====
section
/-! SUPPORT. Statements about every command as syntax, one lemma for each constructor: the word the encoder
gives lies in the command's own row of spec/opcode_table.json. -/

namespace Sys2Proof.Laws.RowMatch

/-- `mask` and `match` of the command's row of spec/opcode_table.json, each as opcode and operand field. -/
def row : Instr → (Byte × BitVec 24) × (Byte × BitVec 24)
  | .nop => ((0xFF#8, 0xFFFFFF#24), (0x00#8, 0x000000#24))
  | .rdstat => ((0xFF#8, 0xFFFFFF#24), (0x01#8, 0x000000#24))
  | .wrcfg _ => ((0xFF#8, 0xFFFF00#24), (0x02#8, 0x000000#24))
  | .rdcfg _ => ((0xFF#8, 0xFFFF00#24), (0x03#8, 0x000000#24))
  | .sreset => ((0xFF#8, 0xFFFFFF#24), (0x04#8, 0x000000#24))
  | .gfmul _ _ => ((0xFF#8, 0xFF0000#24), (0x10#8, 0x000000#24))
  | .gfmul2 _ => ((0xFF#8, 0xFFFF00#24), (0x11#8, 0x000000#24))
  | .gfmul3 _ => ((0xFF#8, 0xFFFF00#24), (0x12#8, 0x000000#24))
  | .ldkey => ((0xFF#8, 0xFFFFFF#24), (0x20#8, 0x000000#24))
  | .kseed => ((0xFF#8, 0xFFFFFF#24), (0x21#8, 0x000000#24))
  | .kstept _ => ((0xFF#8, 0xFFFFF0#24), (0x22#8, 0x000000#24))
  | .kexpt => ((0xFF#8, 0xFFFFFF#24), (0x23#8, 0x000000#24))
  | .kassist _ => ((0xFF#8, 0xFFFFF0#24), (0x24#8, 0x000000#24))
  | .kexpv => ((0xFF#8, 0xFFFFFF#24), (0x25#8, 0x000000#24))
  | .kinv => ((0xFF#8, 0xFFFFFF#24), (0x26#8, 0x000000#24))
  | .rdrk _ => ((0xFF#8, 0xFFFFF0#24), (0x27#8, 0x000000#24))
  | .rdik _ => ((0xFF#8, 0xFFFFF0#24), (0x28#8, 0x000000#24))
  | .lds => ((0xFF#8, 0xFFFFFF#24), (0x30#8, 0x000000#24))
  | .rds => ((0xFF#8, 0xFFFFFF#24), (0x31#8, 0x000000#24))
  | .ldctr => ((0xFF#8, 0xFFFFFF#24), (0x32#8, 0x000000#24))
  | .ldblk _ => ((0xFF#8, 0x000000#24), (0x33#8, 0x000000#24))
  | .stblk _ => ((0xFF#8, 0x000000#24), (0x34#8, 0x000000#24))
  | .subb => ((0xFF#8, 0xFFFFFF#24), (0x40#8, 0x000000#24))
  | .shrow => ((0xFF#8, 0xFFFFFF#24), (0x41#8, 0x000000#24))
  | .mixcol => ((0xFF#8, 0xFFFFFF#24), (0x42#8, 0x000000#24))
  | .addrk _ => ((0xFF#8, 0xFFFFF0#24), (0x43#8, 0x000000#24))
  | .isubb => ((0xFF#8, 0xFFFFFF#24), (0x44#8, 0x000000#24))
  | .ishrow => ((0xFF#8, 0xFFFFFF#24), (0x45#8, 0x000000#24))
  | .imixcol => ((0xFF#8, 0xFFFFFF#24), (0x46#8, 0x000000#24))
  | .xctr => ((0xFF#8, 0xFFFFFF#24), (0x47#8, 0x000000#24))
  | .venc _ => ((0xFF#8, 0xFFFFF0#24), (0x48#8, 0x000000#24))
  | .venclast _ => ((0xFF#8, 0xFFFFF0#24), (0x49#8, 0x000000#24))
  | .vdec _ => ((0xFF#8, 0xFFFFF0#24), (0x4A#8, 0x000000#24))
  | .vdeclast _ => ((0xFF#8, 0xFFFFF0#24), (0x4B#8, 0x000000#24))
  | .enct _ => ((0xFF#8, 0xFFFFFE#24), (0x50#8, 0x000000#24))
  | .encv _ => ((0xFF#8, 0xFFFFFE#24), (0x51#8, 0x000000#24))
  | .decv _ => ((0xFF#8, 0xFFFFFE#24), (0x52#8, 0x000000#24))
  | .parenc _ _ => ((0xFF#8, 0xFFFFFC#24), (0x60#8, 0x000000#24))
  | .gpudisp _ => ((0xFF#8, 0xFFFFFE#24), (0x70#8, 0x000000#24))

/-- The encoded word agrees with `match` on the bits of `mask`, and a well-formed command is what the row's
name says. -/
def Statement (i : Instr) : Prop :=
  i.wellFormed = true → encode i &&& ((row i).1.1 ++ (row i).1.2) = (row i).2.1 ++ (row i).2.2

theorem and_append (a b : Byte) (x y : BitVec 24) : (a ++ x : CmdWord) &&& (b ++ y) = (a &&& b) ++ (x &&& y) := by
  apply BitVec.eq_of_getLsbD_eq
  intro i hi
  simp only [BitVec.getLsbD_and, BitVec.getLsbD_append]
  split_ifs <;> rfl

/-- A command whose opcode and operand field agree with the row. -/
theorem of_fields {i : Instr} {m k : Byte × BitVec 24} (hr : row i = (m, k)) (ho : i.opcode &&& m.1 = k.1)
    (hx : i.operandField &&& m.2 = k.2) : Statement i := by
  intro _
  rw [encode, hr, and_append, ho, hx]

theorem field_r (r : Nat) : (0#20 ++ BitVec.ofNat 4 r : BitVec 24) &&& 0xFFFFF0#24 = 0#24 := by
  generalize BitVec.ofNat 4 r = x
  revert x
  decide

theorem field_byte (x : Byte) : (0#16 ++ x : BitVec 24) &&& 0xFFFF00#24 = 0#24 := by
  revert x
  decide +kernel

theorem field_bytes (x y : Byte) : (0#8 ++ x ++ y : BitVec 24) &&& 0xFF0000#24 = 0#24 := by
  apply BitVec.eq_of_getLsbD_eq
  intro i hi
  simp only [BitVec.getLsbD_and, BitVec.getLsbD_append]
  interval_cases i <;> simp

theorem field_c (c : Bool) : (0#23 ++ BitVec.ofBool c : BitVec 24) &&& 0xFFFFFE#24 = 0#24 := by
  cases c <;> rfl

theorem nop : Statement .nop := of_fields rfl (by rw [Instr.opcode]; decide) rfl

theorem rdstat : Statement .rdstat := of_fields rfl (by rw [Instr.opcode]; decide) rfl

theorem wrcfg (sel : CfgReg) : Statement (.wrcfg sel) := of_fields rfl (by rw [Instr.opcode]; decide) (field_byte sel.sel)

theorem rdcfg (sel : CfgReg) : Statement (.rdcfg sel) := of_fields rfl (by rw [Instr.opcode]; decide) (field_byte sel.sel)

theorem sreset : Statement .sreset := of_fields rfl (by rw [Instr.opcode]; decide) rfl

theorem gfmul (a : Byte) (b : Byte) : Statement (.gfmul a b) := of_fields rfl (by rw [Instr.opcode]; decide) (field_bytes a b)

theorem gfmul2 (a : Byte) : Statement (.gfmul2 a) := of_fields rfl (by rw [Instr.opcode]; decide) (field_byte a)

theorem gfmul3 (a : Byte) : Statement (.gfmul3 a) := of_fields rfl (by rw [Instr.opcode]; decide) (field_byte a)

theorem ldkey : Statement .ldkey := of_fields rfl (by rw [Instr.opcode]; decide) rfl

theorem kseed : Statement .kseed := of_fields rfl (by rw [Instr.opcode]; decide) rfl

theorem kstept (r : Nat) : Statement (.kstept r) := of_fields rfl (by rw [Instr.opcode]; decide) (field_r r)

theorem kexpt : Statement .kexpt := of_fields rfl (by rw [Instr.opcode]; decide) rfl

theorem kassist (r : Nat) : Statement (.kassist r) := of_fields rfl (by rw [Instr.opcode]; decide) (field_r r)

theorem kexpv : Statement .kexpv := of_fields rfl (by rw [Instr.opcode]; decide) rfl

theorem kinv : Statement .kinv := of_fields rfl (by rw [Instr.opcode]; decide) rfl

theorem rdrk (r : Nat) : Statement (.rdrk r) := of_fields rfl (by rw [Instr.opcode]; decide) (field_r r)

theorem rdik (r : Nat) : Statement (.rdik r) := of_fields rfl (by rw [Instr.opcode]; decide) (field_r r)

theorem lds : Statement .lds := of_fields rfl (by rw [Instr.opcode]; decide) rfl

theorem rds : Statement .rds := of_fields rfl (by rw [Instr.opcode]; decide) rfl

theorem ldctr : Statement .ldctr := of_fields rfl (by rw [Instr.opcode]; decide) rfl

theorem ldblk (idx : BitVec 24) : Statement (.ldblk idx) := of_fields rfl (by rw [Instr.opcode]; decide) (BitVec.and_zero)

theorem stblk (idx : BitVec 24) : Statement (.stblk idx) := of_fields rfl (by rw [Instr.opcode]; decide) (BitVec.and_zero)

theorem subb : Statement .subb := of_fields rfl (by rw [Instr.opcode]; decide) rfl

theorem shrow : Statement .shrow := of_fields rfl (by rw [Instr.opcode]; decide) rfl

theorem mixcol : Statement .mixcol := of_fields rfl (by rw [Instr.opcode]; decide) rfl

theorem addrk (r : Nat) : Statement (.addrk r) := of_fields rfl (by rw [Instr.opcode]; decide) (field_r r)

theorem isubb : Statement .isubb := of_fields rfl (by rw [Instr.opcode]; decide) rfl

theorem ishrow : Statement .ishrow := of_fields rfl (by rw [Instr.opcode]; decide) rfl

theorem imixcol : Statement .imixcol := of_fields rfl (by rw [Instr.opcode]; decide) rfl

theorem xctr : Statement .xctr := of_fields rfl (by rw [Instr.opcode]; decide) rfl

theorem venc (r : Nat) : Statement (.venc r) := of_fields rfl (by rw [Instr.opcode]; decide) (field_r r)

theorem venclast (r : Nat) : Statement (.venclast r) := of_fields rfl (by rw [Instr.opcode]; decide) (field_r r)

theorem vdec (r : Nat) : Statement (.vdec r) := of_fields rfl (by rw [Instr.opcode]; decide) (field_r r)

theorem vdeclast (r : Nat) : Statement (.vdeclast r) := of_fields rfl (by rw [Instr.opcode]; decide) (field_r r)

theorem enct (c : Bool) : Statement (.enct c) := of_fields rfl (by rw [Instr.opcode]; decide) (field_c c)

theorem encv (c : Bool) : Statement (.encv c) := of_fields rfl (by rw [Instr.opcode]; decide) (field_c c)

theorem decv (c : Bool) : Statement (.decv c) := of_fields rfl (by rw [Instr.opcode]; decide) (field_c c)

theorem parenc (c : Bool) (v : Bool) : Statement (.parenc c v) := of_fields rfl (by rw [Instr.opcode]; decide) (by cases c <;> cases v <;> rfl)

theorem gpudisp (c : Bool) : Statement (.gpudisp c) := of_fields rfl (by rw [Instr.opcode]; decide) (field_c c)

end Sys2Proof.Laws.RowMatch
end

