-- ==== Sys2Proof/Tests/Slice0.lean ====
section
/-! SUPPORT. The model's own tests. Every expected value is from spec/95_test_vectors.md or from an example of a
rule of spec/, named in the test's comment; the witnesses show states that meet the hypotheses of the
statements of Certificates/Slice0/Obligations.lean. -/

namespace Sys2Proof.Tests

set_option Elab.async false

open Sys2Proof.Machine

/-! States and helpers. -/

/-- The key of the source's vector (V1). -/
def key : Block := blockHex 0x2b7e151628aed2a6abf7158809cf4f3c

/-- The plaintext of the source's vector (V1). -/
def plain : Block := blockHex 0x3243f6a8885a308d313198a2e0370734

/-- The counter of the spec's examples. -/
def ctr0 : Block := blockHex 0xf0f1f2f3f4f5f6f7f8f9fafbfcfdfeff

/-- The block whose byte `k` holds `k` (section 2.4). -/
def ramp : Block := blockHex 0x000102030405060708090a0b0c0d0e0f

/-- The schedule of `key` is valid. -/
def keyed : State :=
  { State.reset with
    regKey := key, keyV := true, rk := schedule (roundKeyBy nextRoundKeyT key), rkv := 0x7FF#11 }

/-- Everything is valid: both schedules, the block and the counter. -/
def ready : State :=
  { keyed with
    ik := schedule (inverseRoundKey (rkAt keyed)), ikV := true
    regS := plain, sV := true, regCtr := ctr0, ctrV := true }

/-- Two blocks at 0x1000, byte `0x1000 + i` holding `i` as in program P3; one block to a cache line. -/
def bulk : State :=
  { ready with
    params := { Params.default with clb := 1, devCeil := 1 }
    nBlocks := 2#64, threads := 2#64, inBase := 0x1000#64, outBase := 0x2000#64
    mem := (List.range 31).map fun i => (0x1001 + i, BitVec.ofNat 8 (i + 1)) }

/-- The state of the rows of section 2.7, with `N = 8`, `T = 2`. -/
def eight : State :=
  { ready with nBlocks := 8#64, threads := 2#64, inBase := 0x1000#64, outBase := 0x2000#64 }

/-- The fatal state of program P5, with `ERRCODE = 0x13`. -/
def dead : State := { ready with fatal := true, errCode := 0x13#8 }

/-- `p` holds of the next state. -/
def after (o : Host.Outcome State Fault Refusal) (p : State → Bool) : Bool :=
  match o with
  | .next t => p t
  | .fault _ => false
  | .refused _ => false

/-- The command is answered `(rsp, rdata)`. -/
def answers (i : Instr) (s : State) (rsp : Rsp) (rdata : Block) : Bool :=
  after (exec i s) fun t => t.rsp == rsp && t.rdata == rdata

/-- The command faults with a code and changes no block, round key or byte. -/
def faults (i : Instr) (s : State) (code : Byte) : Bool :=
  after (exec i s) fun t => t == faulted code s

/-- The command leaves a block in `S`. -/
def leaves (i : Instr) (s : State) (v : Nat) : Bool := after (exec i s) fun t => t.regS == blockHex v && t.rsp == .ok

/-- The state with a block in `S`. -/
def withBlock (v : Nat) (s : State) : State := { s with regS := blockHex v, sV := true }

/-- The state with a key and its whole schedules. -/
def withKey (k : Nat) (s : State) : State :=
  let rk := schedule (roundKeyBy nextRoundKeyT (blockHex k))
  { s with
    regKey := blockHex k, keyV := true, rk := rk, rkv := 0x7FF#11
    ik := schedule (inverseRoundKey (roundKey rk)), ikV := true }

/-! Well-formedness: each check refuses an ill-formed command. -/

theorem test_wf_wrcfg_read_only :
    ∀ q ∈ [CfgReg.clb, .lanes, .devCeil, .devInfo, .gpuOffset, .gpuTile, .gpuTiles],
      (Instr.wrcfg q).wellFormed = false := by decide
theorem test_wf_kstept : (Instr.kstept 0).wellFormed = false ∧ (Instr.kstept 11).wellFormed = false := by decide
theorem test_wf_kassist : (Instr.kassist 0).wellFormed = false ∧ (Instr.kassist 11).wellFormed = false := by decide
theorem test_wf_round_index :
    ∀ i ∈ [Instr.rdrk 11, .rdik 11, .addrk 11, .venc 11, .venclast 11, .vdec 11, .vdeclast 11],
      i.wellFormed = false := by decide
theorem test_wf_bounds :
    ∀ i ∈ [Instr.kstept 1, .kstept 10, .kassist 1, .kassist 10, .rdrk 0, .rdrk 10, .rdik 10, .addrk 0, .venc 10,
      .venclast 10, .vdec 0, .vdeclast 10, .wrcfg .outBase, .rdcfg .gpuTiles], i.wellFormed = true := by decide

/-! Decoding: every command's word, written out from the map of R79 and the formats of R76. -/

theorem test_decode_nop : decode 0x00000000#32 = .ok .nop := by decide
theorem test_decode_rdstat : decode 0x01000000#32 = .ok .rdstat := by decide
theorem test_decode_wrcfg : decode 0x02000003#32 = .ok (.wrcfg .outBase) := by decide
theorem test_decode_rdcfg : decode 0x03000022#32 = .ok (.rdcfg .gpuTiles) := by decide
theorem test_decode_sreset : decode 0x04000000#32 = .ok .sreset := by decide
theorem test_decode_gfmul : decode 0x10005783#32 = .ok (.gfmul 0x57#8 0x83#8) := by decide
theorem test_decode_gfmul2 : decode 0x11000057#32 = .ok (.gfmul2 0x57#8) := by decide
theorem test_decode_gfmul3 : decode 0x12000057#32 = .ok (.gfmul3 0x57#8) := by decide
theorem test_decode_ldkey : decode 0x20000000#32 = .ok .ldkey := by decide
theorem test_decode_kseed : decode 0x21000000#32 = .ok .kseed := by decide
theorem test_decode_kstept : decode 0x22000003#32 = .ok (.kstept 3) := by decide
theorem test_decode_kexpt : decode 0x23000000#32 = .ok .kexpt := by decide
theorem test_decode_kassist : decode 0x2400000A#32 = .ok (.kassist 10) := by decide
theorem test_decode_kexpv : decode 0x25000000#32 = .ok .kexpv := by decide
theorem test_decode_kinv : decode 0x26000000#32 = .ok .kinv := by decide
theorem test_decode_rdrk : decode 0x2700000A#32 = .ok (.rdrk 10) := by decide
theorem test_decode_rdik : decode 0x28000001#32 = .ok (.rdik 1) := by decide
theorem test_decode_lds : decode 0x30000000#32 = .ok .lds := by decide
theorem test_decode_rds : decode 0x31000000#32 = .ok .rds := by decide
theorem test_decode_ldctr : decode 0x32000000#32 = .ok .ldctr := by decide
theorem test_decode_ldblk : decode 0x33000005#32 = .ok (.ldblk 5#24) := by decide
theorem test_decode_stblk : decode 0x34FFFFFF#32 = .ok (.stblk 0xFFFFFF#24) := by decide
theorem test_decode_subb : decode 0x40000000#32 = .ok .subb := by decide
theorem test_decode_shrow : decode 0x41000000#32 = .ok .shrow := by decide
theorem test_decode_mixcol : decode 0x42000000#32 = .ok .mixcol := by decide
theorem test_decode_addrk : decode 0x4300000A#32 = .ok (.addrk 10) := by decide
theorem test_decode_isubb : decode 0x44000000#32 = .ok .isubb := by decide
theorem test_decode_ishrow : decode 0x45000000#32 = .ok .ishrow := by decide
theorem test_decode_imixcol : decode 0x46000000#32 = .ok .imixcol := by decide
theorem test_decode_xctr : decode 0x47000000#32 = .ok .xctr := by decide
theorem test_decode_venc : decode 0x48000009#32 = .ok (.venc 9) := by decide
theorem test_decode_venclast : decode 0x4900000A#32 = .ok (.venclast 10) := by decide
theorem test_decode_vdec : decode 0x4A000009#32 = .ok (.vdec 9) := by decide
theorem test_decode_vdeclast : decode 0x4B000000#32 = .ok (.vdeclast 0) := by decide
theorem test_decode_enct : decode 0x50000001#32 = .ok (.enct true) := by decide
theorem test_decode_encv : decode 0x51000001#32 = .ok (.encv true) := by decide
theorem test_decode_decv : decode 0x52000000#32 = .ok (.decv false) := by decide
theorem test_decode_parenc : decode 0x60000002#32 = .ok (.parenc false true) := by decide
theorem test_decode_gpudisp : decode 0x70000001#32 = .ok (.gpudisp true) := by decide

/-- Words the spec calls illegal (sections 2.2, 2.4, 2.5, 2.6, 2.8, 2.9). -/
theorem test_decode_rejects :
    decode 0x53000000#32 = .error .unassignedOpcode ∧ decode 0x05000000#32 = .error .unassignedOpcode ∧
    decode 0xFF000000#32 = .error .unassignedOpcode ∧ decode 0x40000001#32 = .error .reservedBits ∧
    decode 0x22000013#32 = .error .reservedBits ∧ decode 0x22000000#32 = .error .roundKeyRange ∧
    decode 0x2200000B#32 = .error .roundKeyRange ∧ decode 0x4300000B#32 = .error .roundKeyRange ∧
    decode 0x50000002#32 = .error .pathBit ∧ decode 0x51000002#32 = .error .pathBit ∧
    decode 0x52000002#32 = .error .pathBit ∧ decode 0x70000002#32 = .error .pathBit ∧
    decode 0x60000004#32 = .error .reservedBits ∧ decode 0x02000010#32 = .error .selector ∧
    decode 0x02000021#32 = .error .selector ∧ decode 0x03000004#32 = .error .selector ∧
    decode 0x03000023#32 = .error .selector ∧ decode 0x01000001#32 = .error .reservedBits := by decide

theorem test_decode_table_word :
    decodeTableWord 32 0x10005783 = some (.gfmul 0x57#8 0x83#8) ∧ decodeTableWord 32 0x53000000 = none := by decide

/-! System and configuration (section 2.6, programs P1 and P5). -/

theorem test_nop : answers .nop State.reset .ok 0#128 = true := by decide +kernel
theorem test_rdstat_after_kexpt : answers .rdstat keyed .ok 0x07FF0002#128 = true := by decide +kernel
theorem test_rdstat_fatal :
    answers .rdstat { keyed with fatal := true, errCode := 0x13#8 } .ok 0x07FF1303#128 = true := by decide +kernel
theorem test_wrcfg_ignores_high_bits :
    after (exec (.wrcfg .nBlocks) { State.reset with wdata := 0x10000000000000005#128 }) (fun t => t.nBlocks == 5#64)
      = true := by decide +kernel
theorem test_rdcfg_parameters :
    answers (.rdcfg .clb) State.reset .ok 4#128 = true ∧ answers (.rdcfg .devInfo) State.reset .ok 1#128 = true ∧
    answers (.rdcfg .devCeil) State.reset .ok 4#128 = true := by decide +kernel
theorem test_rdcfg_register : answers (.rdcfg .inBase) eight .ok 0x1000#128 = true := by decide +kernel
theorem test_sreset_leaves_the_fatal_state :
    after (exec .sreset dead) (fun t => t.rsp == .ok && t.rdata == 0#128 && t.fatal == false && t.rkv == 0#11) = true := by
  decide +kernel
theorem test_sreset_keeps_memory : after (exec .sreset bulk) (fun t => t.mem == bulk.mem) = true := by decide +kernel

/-! The Galois field (section 2.1). -/

theorem test_gfmul : answers (.gfmul 0x57#8 0x83#8) State.reset .ok 0xC1#128 = true ∧
    answers (.gfmul 0xFF#8 0xFF#8) State.reset .ok 0x13#128 = true := by decide +kernel
theorem test_gfmul2 : answers (.gfmul2 0x57#8) State.reset .ok 0xAE#128 = true ∧
    answers (.gfmul2 0x80#8) State.reset .ok 0x1B#128 = true := by decide +kernel
theorem test_gfmul3 : answers (.gfmul3 0x57#8) State.reset .ok 0xF9#128 = true ∧
    answers (.gfmul3 0x80#8) State.reset .ok 0x9B#128 = true := by decide +kernel

/-! The key schedule (V8, V10, V11; the rows of section 2.2). -/

theorem test_ldkey :
    after (exec .ldkey { ready with wdata := blockHex 0xff }) (fun t =>
      t.regKey == blockHex 0xff && t.keyV && t.rkv == 0#11 && !t.ikV && t.regS == plain) = true := by decide +kernel
theorem test_kseed :
    after (exec .kseed { State.reset with regKey := key, keyV := true })
      (fun t => rkAt t 0 == key && t.rkv == 1#11) = true := by decide +kernel
theorem test_kstept :
    after (exec (.kstept 1) { keyed with rkv := 1#11 })
      (fun t => rkAt t 1 == blockHex 0xa0fafe1788542cb123a339392a6c7605 && t.rkv == 3#11) = true := by decide +kernel
theorem test_kstept_constant_past_the_reduction :
    after (exec (.kstept 10) keyed) (fun t => rkAt t 10 == blockHex 0xd014f9a8c9ee2589e13f0cc8b6630ca6) = true := by
  decide +kernel
theorem test_kexpt :
    after (exec .kexpt { State.reset with regKey := key, keyV := true })
      (fun t => rkAt t 10 == blockHex 0xd014f9a8c9ee2589e13f0cc8b6630ca6 && t.rkv == 0x7FF#11) = true := by decide +kernel
theorem test_kexpt_zero_key :
    after (exec .kexpt { State.reset with keyV := true })
      (fun t => rkAt t 10 == blockHex 0xb4ef5bcb3e92e21123e951cf6f8f188e) = true := by decide +kernel
theorem test_key_gen_assist :
    keyGenAssist key 0x01#8 = blockHex 0x34e4b524e5b52434018a84eb8b84eb01 := by decide +kernel
theorem test_kassist :
    after (exec (.kassist 9) keyed) (fun t => rkAt t 9 == blockHex 0xac7766f319fadc2128d12941575c006e) = true := by
  decide +kernel
theorem test_kexpv :
    after (exec .kexpv { State.reset with regKey := key, keyV := true })
      (fun t => rkAt t 10 == blockHex 0xd014f9a8c9ee2589e13f0cc8b6630ca6 && t.rkv == 0x7FF#11) = true := by decide +kernel
theorem test_kinv :
    after (exec .kinv keyed) (fun t => t.ikV && ikAt t 0 == key &&
      ikAt t 1 == blockHex 0x2b3708a7f262d405bc3ebdbf4b617d62 &&
      ikAt t 10 == blockHex 0xd014f9a8c9ee2589e13f0cc8b6630ca6) = true := by decide +kernel
theorem test_kinv_needs_the_whole_schedule : faults .kinv { keyed with rkv := 0x3FF#11 } 0x02#8 = true := by
  decide +kernel
theorem test_rdrk : answers (.rdrk 10) keyed .ok (blockHex 0xd014f9a8c9ee2589e13f0cc8b6630ca6) = true := by
  decide +kernel
theorem test_rdik : answers (.rdik 9) ready .ok (blockHex 0x0c7b5a631319eafeb0398890664cfbb4) = true := by
  decide +kernel

/-! Data movement (section 2.6). -/

theorem test_lds : after (exec .lds { State.reset with wdata := plain }) (fun t => byteAt t.regS 0 == 0x32#8 && t.sV)
    = true := by decide +kernel
theorem test_rds : answers .rds ready .ok plain = true := by decide +kernel
theorem test_rds_uninitialised : faults .rds State.reset 0x02#8 = true := by decide +kernel
theorem test_ldctr : after (exec .ldctr { State.reset with wdata := ctr0 }) (fun t => t.regCtr == ctr0 && t.ctrV)
    = true := by decide +kernel
theorem test_ldblk : leaves (.ldblk 1#24) { bulk with sV := false } 0x101112131415161718191a1b1c1d1e1f = true := by
  decide +kernel
theorem test_ldblk_range :
    faults (.ldblk 8#24) eight 0x03#8 = true ∧
    faults (.ldblk 0#24) { eight with nBlocks := 1#64, inBase := 0xFFFFFFFFFFFFFFF8#64 } 0x03#8 = true ∧
    leaves (.ldblk 0#24) { eight with nBlocks := 1#64, inBase := 0xFFFFFFFFFFFFFFF0#64 } 0x0 = true ∧
    faults (.ldblk 0#24) { eight with nBlocks := 2#64, inBase := 0xFFFFFFFFFFFFFFF0#64 } 0x03#8 = true := by
  decide +kernel
theorem test_stblk :
    after (exec (.stblk 1#24) bulk) (fun t => t.mem.read 0x2010 == 0x32#8 && t.mem.read 0x201F == 0x34#8 &&
      t.mem.read 0x200F == 0x00#8 && t.mem.read 0x2020 == 0x00#8 && t.mem.wf) = true := by decide +kernel
theorem test_stblk_order : faults (.stblk 8#24) { eight with sV := false } 0x02#8 = true ∧
    faults (.stblk 8#24) eight 0x03#8 = true ∧
    faults (.stblk 0#24) { eight with inBase := 0xFFFFFFFFFFFFFFF0#64 } 0x03#8 = true := by decide +kernel

/-! Round primitives (section 2.4). -/

theorem test_shrow : leaves .shrow { ready with regS := ramp } 0x00050a0f04090e03080d02070c01060b = true := by decide +kernel
theorem test_ishrow : leaves .ishrow { ready with regS := ramp } 0x000d0a0704010e0b0805020f0c090603 = true := by decide +kernel
theorem test_subb : leaves .subb { ready with regS := ramp } 0x637c777bf26b6fc53001672bfed7ab76 = true := by decide +kernel
theorem test_isubb : leaves .isubb { ready with regS := ramp } 0x52096ad53036a538bf40a39e81f3d7fb = true := by decide +kernel
theorem test_mixcol : leaves .mixcol { ready with regS := ramp } 0x02070005060304010a0f080d0e0b0c09 = true := by decide +kernel
theorem test_imixcol : leaves .imixcol { ready with regS := ramp } 0x0a0f080d0e0b0c090207000506030401 = true := by decide +kernel
theorem test_mixcol_unit_vectors :
    leaves .mixcol (withBlock 0x01000000000100000000010000000001 ready) 0x02010103030201010103020101010302 = true := by
  decide +kernel
theorem test_addrk : leaves (.addrk 0) ready 0x193de3bea0f4e22b9ac68d2ae9f84808 = true := by decide +kernel
theorem test_addrk_needs_one_key : leaves (.addrk 0) { ready with rkv := 1#11 } 0x193de3bea0f4e22b9ac68d2ae9f84808
    = true ∧ faults (.venc 1) { ready with rkv := 1#11 } 0x02#8 = true := by decide +kernel
theorem test_xctr : leaves .xctr ready 0xc2b2045b7cafc67ac9c862591ccaf9cb = true := by decide +kernel
theorem test_venc : leaves (.venc 1) (withBlock 0x193de3bea0f4e22b9ac68d2ae9f84808 ready)
    0xa49c7ff2689f352b6b5bea43026a5049 = true := by decide +kernel
theorem test_venclast : leaves (.venclast 10) (withBlock 0xeb40f21e592e38848ba113e71bc342d2 ready)
    0x3925841d02dc09fbdc118597196a0b32 = true := by decide +kernel
theorem test_vdec : leaves (.vdec 9) (withBlock 0xe9317db5cb322c723d2e895faf090794 ready)
    0x876e46a6f24ce78c4d904ad897ecc395 = true := by decide +kernel
theorem test_vdeclast : leaves (.vdeclast 0) (withBlock 0xd4bf5d30e0b452aeb84111f11e2798e5 ready)
    0x3243f6a8885a308d313198a2e0370734 = true := by decide +kernel
theorem test_vdec_reads_the_inverse_schedule : faults (.vdec 9) { ready with ikV := false } 0x02#8 = true := by
  decide +kernel

/-! The whole-block cipher (section 2.5: B1, B3, B9 to B11). -/

theorem test_enct : answers (.enct false) ready .ok (blockHex 0x3925841d02dc09fbdc118597196a0b32) = true := by
  decide +kernel
theorem test_enct_counter :
    leaves (.enct true) (withKey 0x000102030405060708090a0b0c0d0e0f
      (withBlock 0x00112233445566778899aabbccddeeff ready)) 0x7702fc9b71c63d26a2f09df5c445102a = true := by decide +kernel
theorem test_encv : answers (.encv false) ready .ok (blockHex 0x3925841d02dc09fbdc118597196a0b32) = true := by
  decide +kernel
theorem test_encv_counter :
    leaves (.encv true) (withKey 0x000102030405060708090a0b0c0d0e0f
      (withBlock 0x00112233445566778899aabbccddeeff ready)) 0x7702fc9b71c63d26a2f09df5c445102a = true := by decide +kernel
theorem test_decv : leaves (.decv false) (withBlock 0x3925841d02dc09fbdc118597196a0b32 ready)
    0x3243f6a8885a308d313198a2e0370734 = true := by decide +kernel
theorem test_decv_counter :
    leaves (.decv true) (withKey 0x000102030405060708090a0b0c0d0e0f
      (withBlock 0x7702fc9b71c63d26a2f09df5c445102a ready)) 0x00112233445566778899aabbccddeeff = true := by decide +kernel
theorem test_ctr_block :
    ctrBlock (blockHex 0xff000000000000000000000000000000) 1 = blockHex 0x00010000000000000000000000000000 ∧
    ctrBlock (blockHex 0xffffffffffffffffffffffffffffffff) 1 = 0#128 := by decide +kernel

/-! The partitioner (section 2.7, program P3). -/

/-- Two lanes, lane 1 first: the blocks of program P3. -/
theorem test_parenc :
    after (exec (.parenc true false) { bulk with sched := [1] }) (fun t =>
      t.mem.readBlock 0x2000 == blockHex 0xe6bd31d2dd23910a0bf7e2a030837490 &&
      t.mem.readBlock 0x2010 == blockHex 0x736ceb43929bc7d6cde820c513a568ba && t.rsp == .ok && t.rdata == 0#128 &&
      t.lanes == [] && t.regS == plain && t.mem.read 0x2020 == 0x00#8 && t.mem.wf) = true := by decide +kernel

/-- The rows of section 2.7 that fault, in its order, and `LANE_OK` false. -/
theorem test_parenc_faults :
    ∀ q ∈ [({ eight with rkv := 0x3FF#11 }, 0x02#8), ({ eight with nBlocks := 0#64 }, 0x10#8),
      ({ eight with threads := 0#64 }, 0x11#8), ({ eight with threads := 9#64 }, 0x11#8),
      ({ eight with threads := 3#64 }, 0x12#8), ({ eight with threads := 4#64 }, 0x12#8),
      ({ eight with inBase := 0xFFFFFFFFFFFFFFC0#64 }, 0x03#8), ({ eight with inBase := 0x1010#64 }, 0x13#8),
      ({ eight with outBase := 0x2020#64 }, 0x13#8), ({ eight with outBase := 0x1040#64 }, 0x14#8),
      ({ eight with inBase := 0x1040#64, outBase := 0x1000#64 }, 0x14#8),
      ({ eight with params := { Params.default with laneOk := false } }, 0x20#8),
      ({ eight with threads := 3#64, inBase := 0x1010#64 }, 0x12#8),
      ({ eight with params := { Params.default with lanes := 0 } }, 0x11#8)],
      faults (.parenc false false) q.1 q.2 = true := by decide +kernel

/-! The tiler (section 2.8, program P4). -/

/-- Two tiles of one block: the blocks of program P4, and the progress registers. -/
theorem test_gpudisp :
    after (exec (.gpudisp true) bulk) (fun t =>
      t.mem.readBlock 0x2000 == blockHex 0x50fe67cc996d32b6da0937e99bafec60 &&
      t.mem.readBlock 0x2010 == blockHex 0x3cc57e924f3ea903fef7b519d32fde0f && t.rsp == .ok && t.rdata == 0#128 &&
      t.gpuOffset == 2#64 && t.gpuTile == 1#64 && t.gpuTiles == 2#64 && t.tiler == none && t.mem.wf) = true := by
  decide +kernel

/-- The fault cases of section 2.8. -/
theorem test_gpudisp_faults :
    ∀ q ∈ [({ eight with rkv := 0x3FF#11 }, 0x02#8), ({ eight with nBlocks := 0#64 }, 0x10#8),
      ({ eight with outBase := 0xFFFFFFFFFFFFFFC0#64 }, 0x03#8), ({ eight with outBase := 0x1010#64 }, 0x14#8),
      ({ eight with params := { Params.default with devPresent := false } }, 0x21#8),
      ({ eight with params := { Params.default with kernelOk := false } }, 0x15#8),
      ({ eight with params := { Params.default with devPresent := false, kernelOk := false } }, 0x21#8),
      ({ eight with params := { Params.default with devCeil := 0 } }, 0x21#8)],
      faults (.gpudisp false) q.1 q.2 = true := by decide +kernel

/-! The port: one step (section 2.9, program P5). -/

theorem test_step_runs_the_placed_word :
    after (step (State.reset.withFetchWord 32 0x12000057)) (fun t => t.rsp == .ok && t.rdata == 0xF9#128) = true := by
  decide +kernel
theorem test_step_illegal_word :
    after (step (State.reset.withFetchWord 32 0x05000000)) (fun t =>
      t.rsp == .fault && t.rdata == 0x01#128 && t.fatal && t.errCode == 0x01#8) = true := by decide +kernel
/-- Decoding comes before `S_V` and `RKV` (section 2.9, the row of 0x43000010). -/
theorem test_step_decode_comes_first :
    after (step (State.reset.withFetchWord 32 0x43000010)) (fun t => t.errCode == 0x01#8) = true := by decide +kernel
theorem test_step_fatal_refuses :
    after (step (dead.withFetchWord 32 0xFF000000)) (fun t =>
      t.rsp == .refused && t.rdata == 0x13#128 && t.errCode == 0x13#8) = true := by decide +kernel

/-! Memory. -/

theorem test_memory_write_zero_removes :
    Memory.write (Memory.write [] 5 0xAA#8) 5 0x00#8 = [] ∧
    Memory.write (Memory.write [] 5 0xAA#8) 3 0xBB#8 = [(3, 0xBB#8), (5, 0xAA#8)] := by decide
theorem test_memory_canonical : Memory.wf [(3, 0xBB#8), (5, 0xAA#8)] = true ∧ Memory.wf [(5, 0xAA#8), (3, 0xBB#8)] = false ∧
    Memory.wf [(3, 0x00#8)] = false := by decide

/-! Witnesses: a state and operands that meet the hypotheses of each statement. -/

/-- `ready` meets the invariant; so does every state used below that differs from it in `wdata`, the host's list
or the configuration. -/
theorem witness_inv : ready.Inv where
  memory := rfl
  schedule := by unfold State.scheduleOfKey; decide +kernel
  inverse := by unfold State.inverseOfSchedule; decide +kernel
  errCode := ⟨fun _ => rfl, fun h => absurd h (by decide +kernel)⟩
  bulk := ⟨rfl, rfl⟩

theorem witness_inv_bulk : bulk.Inv where
  memory := by decide +kernel
  schedule := witness_inv.schedule
  inverse := witness_inv.inverse
  errCode := ⟨fun _ => rfl, fun h => absurd h (by decide +kernel)⟩
  bulk := ⟨rfl, rfl⟩

/-- DecodeEncodeRoundTrip. -/
theorem witness_wellFormed : (Instr.kstept 10).wellFormed = true ∧ (Instr.rdcfg .gpuTiles).wellFormed = true := by decide

/-- DecodedWordReencodes. -/
theorem witness_decoded : decode 0x34FFFFFF#32 = .ok (.stblk 0xFFFFFF#24) := by decide

/-- UnassignedOpcodesAreIllegal: the ends of each range of R84. -/
theorem witness_unassigned :
    ∀ op ∈ [0x05, 0x0F, 0x13, 0x1F, 0x29, 0x2F, 0x35, 0x3F, 0x4C, 0x4F, 0x53, 0x5F, 0x61, 0x6F, 0x71, 0xFF],
      unassignedOpcode op := by unfold unassignedOpcode; decide
theorem witness_unassigned_at_port :
    atPort 0x53000000#32 0#128 [] (pushCommand 0x53000000#32 State.reset) ∧
      (pushCommand 0x53000000#32 State.reset).live ∧ unassignedOpcode ((0x53000000#32 : CmdWord).toNat / 2 ^ 24) := by
  refine ⟨rfl, rfl, ?_⟩
  unfold unassignedOpcode
  decide

/-- IllegalWordRaisesIllegalCmd: a word for each clause of R83, at the edge of the clause; legal words beside them;
and block index `N`. -/
theorem witness_illegal :
    ∀ w ∈ [(0x70000002#32 : CmdWord), 0x71000000#32, 0x00000001#32, 0x2700000B#32, 0x27000010#32, 0x22000000#32,
      0x10010000#32, 0x11000100#32, 0x03000100#32, 0x60000004#32, 0x50000002#32, 0x02000004#32, 0x03000004#32],
      illegalWord w := by
  simp [illegalWord, illegalFields, unassignedOpcode, opcodesZ, opcodesR, selectors]
theorem witness_legal :
    ∀ w ∈ [(0x70000001#32 : CmdWord), 0x00000000#32, 0x2700000A#32, 0x22000001#32, 0x1000FFFF#32, 0x110000FF#32,
      0x60000003#32, 0x50000001#32, 0x02000003#32, 0x03000022#32], ¬ illegalWord w := by
  simp [illegalWord, illegalFields, unassignedOpcode, opcodesZ, opcodesR, selectors]
theorem witness_index_out_of_range : eight.live ∧ eight.nBlocks.toNat ≤ (8#24).toNat ∧ eight.sV = true := by decide +kernel

/-- RoundIndexRanges, and IllFormedCommandRaisesIllegalCmd. -/
theorem witness_round_opcodes : (0x22#8 : Byte).toNat ∈ opcodesR ∧ (0x4B#8 : Byte).toNat ∈ opcodesR := by decide
theorem witness_illFormed : ready.live ∧ (Instr.kstept 0).wellFormed = false := by decide +kernel

/-- StepExecutesDecodedCommand. -/
theorem witness_atPort :
    atPort 0x10005783#32 0#128 [] (pushCommand 0x10005783#32 State.reset) ∧
      decode 0x10005783#32 = .ok (.gfmul 0x57#8 0x83#8) := ⟨rfl, by decide⟩

/-- HostMovesBetweenCommands, at the top of memory, and ResetClearsTheCore. -/
theorem witness_host_moves :
    State.reset.host = [] ∧
    ({ bulk with host := [.store 0xFFFFFFFFFFFFFFFF#64 0xAA#8] } : State).host =
      [.store 0xFFFFFFFFFFFFFFFF#64 0xAA#8] ∧ bulk.mem.wf = true ∧
    ({ dead with host := [.rst] } : State).host = [.rst] := ⟨rfl, rfl, by decide +kernel, rfl⟩

/-- FatalStateRefuses and ResponseTellsTheOutcome: a fatal state with a legal and with an illegal word. -/
theorem witness_fatal :
    dead.fatal = true ∧ atPort 0x27000000#32 0#128 [] (pushCommand 0x27000000#32 dead) ∧
      (0x27000000#32 : CmdWord) ≠ 0x01000000#32 ∧ atPort 0x01000001#32 0#128 [] (pushCommand 0x01000001#32 dead) ∧
      (0x01000001#32 : CmdWord) ≠ 0x01000000#32 := ⟨rfl, rfl, by decide, rfl, by decide⟩

/-- FaultChangesNothingElse. -/
theorem witness_fault : State.reset.live ∧ after (exec .rds State.reset) (fun t => t.fatal) = true := by decide +kernel

/-- UninitialisedReadsFault: each clause, at both ends of the round-key indices. -/
theorem witness_uninit :
    State.reset.live ∧ State.reset.keyV = false ∧ rkValid State.reset (1 - 1) = false ∧
    rkValid State.reset (10 - 1) = false ∧ rkValid State.reset 0 = false ∧ rkValid State.reset 10 = false ∧
    State.reset.ikV = false ∧ State.reset.sV = false ∧ State.reset.ctrV = false := by decide +kernel

/-- WhoReadsWdata: two operands with the same low 64 bits, and a command that takes none. -/
theorem witness_wdata :
    (0x10000000000000005#128 : Block).extractLsb' 0 64 = (5#128 : Block).extractLsb' 0 64 ∧
    Instr.rds.takesWdata = false ∧ CfgReg.outBase.writable = true := by decide

/-- RdstatRespondsStatusWord and RdcfgReadsTheRegister: the invariant and legal parameters. -/
theorem witness_status : ready.Inv ∧ ready.fatal = false ∧ Params.default.wf := ⟨witness_inv, rfl, by decide⟩

/-- The statements about a live core with a valid block, schedules and counter: the galois, system, key, data and
round commands and the whole-block cipher, at the least and the greatest round-key index. -/
theorem witness_ready :
    ready.live ∧ ready.keyV = true ∧ ready.sV = true ∧ ready.ctrV = true ∧ ready.ikV = true ∧ ready.rkv = 0x7FF#11 ∧
    rkValid ready 0 = true ∧ rkValid ready (1 - 1) = true ∧ rkValid ready (10 - 1) = true ∧ rkValid ready 10 = true := by
  decide +kernel

/-- LdblkLoadsTheBlock and StblkStoresTheBlock: the last block of a buffer that ends at 2^64, and the clauses that
fault. -/
theorem witness_blocks :
    (let s := { bulk with nBlocks := 4#64, inBase := 0xFFFFFFFFFFFFFFC0#64, outBase := 0xFFFFFFFFFFFFFFC0#64 }
     s.live ∧ s.mem.wf = true ∧ s.sV = true ∧ (3#24).toNat < s.nBlocks.toNat ∧
      s.inBase.toNat + 16 * ((3#24).toNat + 1) ≤ 2 ^ 64 ∧ s.outBase.toNat + 16 * ((3#24).toNat + 1) ≤ 2 ^ 64 ∧
      buffersFit s ∧ ¬ (4#24).toNat < s.nBlocks.toNat ∧ ¬ buffersFit { s with nBlocks := 5#64 }) ∧ ({ bulk with sV := false } : State).sV = false := by decide +kernel

/-- StandardVector. -/
theorem witness_standard :
    ready.regKey = blockHex 0x2b7e151628aed2a6abf7158809cf4f3c ∧
      ready.regS = blockHex 0x3243f6a8885a308d313198a2e0370734 := ⟨rfl, rfl⟩

/-- ParencEncryptsEveryBlock, ParencIgnoresScheduleAndPath and ParencLanesKeepToTheirSlices: two lanes and one;
in place; and a buffer that ends at 2^64. -/
theorem witness_parenc : ∀ c, ParencAllowed c bulk ∧ ParencAllowed c { bulk with threads := 1#64 } ∧
    ParencAllowed c { bulk with outBase := 0x1000#64, inBase := 0x1000#64 } ∧
    ParencAllowed c { bulk with outBase := 0xFFFFFFFFFFFFFFE0#64 } := by
  intro c
  refine ⟨⟨rfl, fun _ => rfl, ?_, ?_, ?_, ?_, ?_, ?_, ?_, ?_, rfl⟩, ⟨rfl, fun _ => rfl, ?_, ?_, ?_, ?_, ?_, ?_, ?_, ?_, rfl⟩,
    ⟨rfl, fun _ => rfl, ?_, ?_, ?_, ?_, ?_, ?_, ?_, ?_, rfl⟩, ⟨rfl, fun _ => rfl, ?_, ?_, ?_, ?_, ?_, ?_, ?_, ?_, rfl⟩⟩ <;>
  decide +kernel

/-- GpudispEncryptsEveryBlock and ScheduleIsWrittenToTheDeviceOnce: a ceiling below, at and above `N`, and an
unaligned buffer. -/
theorem witness_gpudisp : GpudispAllowed bulk ∧
    GpudispAllowed { bulk with params := { Params.default with devCeil := 2 } } ∧
    GpudispAllowed { bulk with params := { Params.default with devCeil := 100 } } ∧
    GpudispAllowed { bulk with inBase := 0x1008#64, outBase := 0x2004#64 } := by
  refine ⟨⟨rfl, ?_, ?_, ?_, rfl, rfl, ?_⟩, ⟨rfl, ?_, ?_, ?_, rfl, rfl, ?_⟩, ⟨rfl, ?_, ?_, ?_, rfl, rfl, ?_⟩,
    ⟨rfl, ?_, ?_, ?_, rfl, rfl, ?_⟩⟩ <;> decide +kernel

/-- GpudispIgnoresTheCounterRegister, StepKeepsTheInvariant, RegistersAndTheirWriters and
OnlyTheOutputBufferIsWritten: a command answers a next state, and so does a step from a state with the
invariant. -/
theorem witness_next :
    (∃ t, exec (.gpudisp true) bulk = .next t) ∧ (∃ t, step ready = .next t) ∧ ready.Inv ∧
      (Instr.gpudisp true) ≠ .sreset ∧ 0x1FFF < bulk.outBase.toNat ∧
      bulk.outBase.toNat + 16 * bulk.nBlocks.toNat ≤ 0x2020 :=
  ⟨⟨_, rfl⟩, ⟨_, rfl⟩, witness_inv, by decide, by decide +kernel, by decide +kernel⟩

end Sys2Proof.Tests
end

section
/-! PROOFS. The two paths of the key schedule agree on every round key: each gives the block whose bytes
satisfy the recurrence `isNextRoundKey`, and there is only one such block. -/

namespace Sys2Proof.Machine

/-- The byte recurrence of a round key has one solution. -/
theorem isNextRoundKey_unique {r : Nat} {p q q' : Block} (h : isNextRoundKey r p q) (h' : isNextRoundKey r p q') :
    q = q' := by
  obtain ⟨h0, h1, h2, h3, hk⟩ := h
  obtain ⟨h0', h1', h2', h3', hk'⟩ := h'
  apply block_ext
  intro k
  induction k using Nat.strong_induction_on with
  | _ k ih =>
    intro hlt
    by_cases h4 : 4 ≤ k
    · rw [hk k h4 hlt, hk' k h4 hlt, ih (k - 4) (by omega) (by omega)]
    · interval_cases k
      · rw [h0, h0']
      · rw [h1, h1']
      · rw [h2, h2']
      · rw [h3, h3']

/-! Words given by their bytes. -/

@[simp] theorem be32Byte_xor (v w : Word32) (j : Nat) : be32Byte (v ^^^ w) j = be32Byte v j ^^^ be32Byte w j := by
  simp only [be32Byte, BitVec.extractLsb'_xor]

theorem be32_xor (x0 x1 x2 x3 y0 y1 y2 y3 : Byte) :
    be32 x0 x1 x2 x3 ^^^ be32 y0 y1 y2 y3 = be32 (x0 ^^^ y0) (x1 ^^^ y1) (x2 ^^^ y2) (x3 ^^^ y3) := by
  rw [← be32_be32Byte (be32 x0 x1 x2 x3 ^^^ be32 y0 y1 y2 y3)]
  simp

theorem byteAt_blockOfWords (q : Nat → Word32) {k : Nat} (h : k < 16) :
    byteAt (blockOfWords q) k = be32Byte (q (k / 4)) (k % 4) := byteAt_blockOf _ h

theorem be32Byte_wordAt (w : Block) (j : Nat) {i : Nat} (h : i < 4) :
    be32Byte (wordAt w j) i = byteAt w (4 * j + i) := by
  interval_cases i <;> simp [wordAt]

/-! The table-driven path, word by word in big-endian order. -/

/-- `RotWord` on a word given by its bytes (spec/41_key_schedule_table.md R106). -/
theorem rotWord_be32 (x0 x1 x2 x3 : Byte) : rotWord (be32 x0 x1 x2 x3) = be32 x1 x2 x3 x0 := by
  apply BitVec.eq_of_getLsbD_eq
  intro i hi
  simp only [rotWord, BitVec.getLsbD_append, BitVec.getLsbD_extractLsb', be32_getLsbD]
  grind

/-- `G` on a word given by its bytes (spec/41_key_schedule_table.md R107). -/
theorem keyG_be32 (x0 x1 x2 x3 : Byte) (r : Nat) :
    keyG (be32 x0 x1 x2 x3) r = be32 (sbox x1 ^^^ rcon r) (sbox x2) (sbox x3) (sbox x0) := by
  have hrc : (rcon r).setWidth 32 <<< 24 = be32 (rcon r) 0#8 0#8 0#8 := by
    apply BitVec.eq_of_getLsbD_eq
    intro i hi
    simp only [be32_getLsbD, BitVec.getLsbD_shiftLeft, BitVec.getLsbD_setWidth]
    grind
  simp [keyG, rotWord_be32, hrc, subWord, be32_xor]

/-- The table-driven path gives the next round key (spec/41_key_schedule_table.md R108). -/
theorem isNextRoundKey_nextRoundKeyT (p : Block) (r : Nat) : isNextRoundKey r p (nextRoundKeyT p r) := by
  have first : ∀ i, i < 4 → byteAt (nextRoundKeyT p r) i =
      byteAt p i ^^^ be32Byte (be32 (sbox (byteAt p 13) ^^^ rcon r) (sbox (byteAt p 14)) (sbox (byteAt p 15))
        (sbox (byteAt p 12))) i := by
    intro i hi
    rw [nextRoundKeyT, byteAt_blockOfWords _ (by omega), Nat.div_eq_of_lt hi, Nat.mod_eq_of_lt hi, nextWordT,
      be32Byte_xor, be32Byte_wordAt _ _ hi, wordAt, keyG_be32]
    simp
  refine ⟨?_, ?_, ?_, ?_, ?_⟩
  · simp [first, BitVec.xor_assoc]
  · simp [first]
  · simp [first]
  · simp [first]
  · intro k h4 hk
    obtain ⟨j, rfl⟩ : ∃ j, k = 4 + j := ⟨k - 4, by omega⟩
    rw [nextRoundKeyT, byteAt_blockOfWords _ hk, byteAt_blockOfWords _ (by omega), Nat.add_sub_cancel_left,
      show (4 + j) / 4 = j / 4 + 1 by omega, show (4 + j) % 4 = j % 4 by omega, nextWordT, be32Byte_xor,
      be32Byte_wordAt _ _ (by omega), show 4 * (j / 4 + 1) + j % 4 = 4 + j by omega]

/-! The hardware-assisted path, lane by lane in little-endian order. -/

/-- `RotLane` on a lane given by its bytes, the most significant first (spec/42_key_schedule_assisted.md R121). -/
theorem rotLane_be32 (x0 x1 x2 x3 : Byte) : rotLane (be32 x0 x1 x2 x3) = be32 x3 x0 x1 x2 := by
  apply BitVec.eq_of_getLsbD_eq
  intro i hi
  simp only [rotLane, BitVec.getLsbD_append, BitVec.getLsbD_extractLsb', be32_getLsbD]
  grind

/-- The bytes of a substituted lane, the most significant first (R121). -/
theorem subLane_laneAt (w : Block) (j : Nat) :
    subLane (laneAt w j) = be32 (sbox (byteAt w (4 * j + 3))) (sbox (byteAt w (4 * j + 2)))
      (sbox (byteAt w (4 * j + 1))) (sbox (byteAt w (4 * j))) := by
  have low : (laneAt w j).extractLsb' (8 * 0) 8 = byteAt w (4 * j) := laneAt_byte w (by decide)
  rw [← low, ← laneAt_byte w (show 1 < 4 by decide), ← laneAt_byte w (show 2 < 4 by decide),
    ← laneAt_byte w (show 3 < 4 by decide)]
  rfl

/-- The top lane of `KeyGenAssist`: the rotated, substituted top lane, with the constant in its low byte (R121). -/
theorem keyGenLane_top (p : Block) (rc : Byte) :
    keyGenLane p rc 3 =
      be32 (sbox (byteAt p 12)) (sbox (byteAt p 15)) (sbox (byteAt p 14)) (sbox (byteAt p 13) ^^^ rc) := by
  have hrc : rc.setWidth 32 = be32 0#8 0#8 0#8 rc := by
    apply BitVec.eq_of_getLsbD_eq
    intro i hi
    simp only [be32_getLsbD, BitVec.getLsbD_setWidth]
    grind
  simp [keyGenLane, subLane_laneAt, rotLane_be32, hrc, be32_xor]

/-- `Bcast3` of the assist word: each lane has the bytes of its top lane, the least significant first (R122). -/
theorem byteAt_bcast3_keyGenAssist (p : Block) (rc : Byte) {k : Nat} (h : k < 16) :
    byteAt (bcast3 (keyGenAssist p rc)) k =
      be32Byte (be32 (sbox (byteAt p 12)) (sbox (byteAt p 15)) (sbox (byteAt p 14)) (sbox (byteAt p 13) ^^^ rc))
        (3 - k % 4) := by
  rw [bcast3, byteAt_blockOfLanes _ h, laneAt_byte _ (by omega), keyGenAssist, byteAt_blockOfLanes _ (by omega),
    show (4 * 3 + k % 4) / 4 = 3 by omega, keyGenLane_top, be32Byte,
    show 3 - (3 - k % 4) = (4 * 3 + k % 4) % 4 by omega]

/-- `ShiftUp4` moves every byte up by four places (spec/42_key_schedule_assisted.md R122). -/
theorem byteAt_shiftUp4 (v : Block) {k : Nat} (h : k < 16) :
    byteAt (shiftUp4 v) k = if k < 4 then 0#8 else byteAt v (k - 4) := by
  apply BitVec.eq_of_getLsbD_eq
  intro i hi
  rw [byteAt_getLsbD, shiftUp4, BitVec.getLsbD_shiftLeft]
  split_ifs with h4
  · simp [show 8 * k + i < 32 by omega]
  · rw [byteAt_getLsbD, show 8 * k + i - 32 = 8 * (k - 4) + i by omega]
    simp [hi, show ¬ 8 * k + i < 32 by omega, show 8 * k + i < 128 by omega]

/-- The three steps of `AssistMix` add to each lane all lanes below it: the sum shifted up and XORed to the block
is the sum again (R122). -/
theorem prefixXor_thrice (p : Block) :
    prefixXor (prefixXor (prefixXor p)) = p ^^^ shiftUp4 (prefixXor (prefixXor (prefixXor p))) := by
  have out : p <<< 128 = 0#128 := BitVec.shiftLeft_eq_zero (le_refl _)
  simp only [prefixXor, shiftUp4, BitVec.shiftLeft_xor_distrib, ← BitVec.shiftLeft_add, Nat.reduceAdd, out]
  generalize p <<< 32 = b, p <<< 64 = c, p <<< 96 = d
  apply BitVec.eq_of_getLsbD_eq
  intro i hi
  simp only [BitVec.getLsbD_xor, BitVec.getLsbD_zero]
  cases p.getLsbD i <;> cases b.getLsbD i <;> cases c.getLsbD i <;> cases d.getLsbD i <;> rfl

/-- Byte `k` of the sum of lanes. -/
theorem byteAt_prefixXor_thrice (p : Block) {k : Nat} (h : k < 16) :
    byteAt (prefixXor (prefixXor (prefixXor p))) k =
      byteAt p k ^^^ if k < 4 then 0#8 else byteAt (prefixXor (prefixXor (prefixXor p))) (k - 4) := by
  rw [← byteAt_shiftUp4 _ h, ← byteAt_xor, ← prefixXor_thrice]

/-- The hardware-assisted path gives the next round key (spec/42_key_schedule_assisted.md R123). -/
theorem isNextRoundKey_nextRoundKeyV (p : Block) (r : Nat) : isNextRoundKey r p (nextRoundKeyV p r) := by
  have byte : ∀ k, k < 16 → byteAt (nextRoundKeyV p r) k =
      byteAt (prefixXor (prefixXor (prefixXor p))) k ^^^ byteAt (bcast3 (keyGenAssist p (rcon r))) k :=
    fun k _ => byteAt_xor _ _ k
  refine ⟨?_, ?_, ?_, ?_, ?_⟩
  · simp [byte, byteAt_prefixXor_thrice, byteAt_bcast3_keyGenAssist, BitVec.xor_assoc]
  · simp [byte, byteAt_prefixXor_thrice, byteAt_bcast3_keyGenAssist]
  · simp [byte, byteAt_prefixXor_thrice, byteAt_bcast3_keyGenAssist]
  · simp [byte, byteAt_prefixXor_thrice, byteAt_bcast3_keyGenAssist]
  · intro k h4 hk
    rw [byte k hk, byte (k - 4) (by omega), byteAt_prefixXor_thrice p hk, if_neg (by omega), BitVec.xor_assoc,
      byteAt_bcast3_keyGenAssist _ _ hk, byteAt_bcast3_keyGenAssist _ _ (by omega), show (k - 4) % 4 = k % 4 by omega]

/-- The two paths derive the same round keys (spec/42_key_schedule_assisted.md R123). -/
theorem nextRoundKeyV_eq_nextRoundKeyT : nextRoundKeyV = nextRoundKeyT := by
  funext p r
  exact isNextRoundKey_unique (isNextRoundKey_nextRoundKeyV p r) (isNextRoundKey_nextRoundKeyT p r)

end Sys2Proof.Machine
end

section
/-! PROOFS. The bulk commands keep host memory in canonical form: every block they write lies in the output
buffer, which ends at or below the top of the address space. -/

namespace Sys2Proof.Machine

/-- The write of a block of an output buffer in range keeps the canonical form. -/
theorem writeBlock_outAddr_wf {s : State} (hr : outAddr s (numBlocks s) ≤ 2 ^ 64) (hm : s.mem.wf = true) {g : Nat}
    (hg : g < numBlocks s) (v : Block) : Memory.wf (s.mem.writeBlock (outAddr s g) v) = true :=
  writeBlock_wf hm (by simp only [outAddr] at *; omega) v

/-! The partitioner. -/

/-- The output buffer is in range, memory is in canonical form, and every lane has blocks of the buffer only. -/
structure LanesFit (s : State) : Prop where
  range : outAddr s (numBlocks s) ≤ 2 ^ 64
  memory : s.mem.wf = true
  blocks : ∀ l ∈ s.lanes, l.start + l.count ≤ numBlocks s

/-- The slices of the lanes created lie in the buffer (spec/45_parallel_partitioner.md R177, R180). -/
theorem createLanes_fit {s : State} (hr : outAddr s (numBlocks s) ≤ 2 ^ 64) (hm : s.mem.wf = true) :
    LanesFit (createLanes s) where
  range := hr
  memory := hm
  blocks := by
    intro l hl
    obtain ⟨t, ht, rfl⟩ := List.mem_map.mp hl
    have ht : t + 1 ≤ s.threads.toNat := List.mem_range.mp ht
    calc t * perLane s + perLane s = (t + 1) * perLane s := by ring
      _ ≤ s.threads.toNat * perLane s := Nat.mul_le_mul_right _ ht
      _ ≤ numBlocks s := Nat.mul_div_le _ _

/-- The block operation of a lane writes one block and moves this lane on by one (R181). -/
theorem laneBlock_effect (c v : Bool) (t : Nat) (l : Lane) (g : Nat) (s : State) :
    ∃ y, (laneBlock c v t l g s).mem = s.mem.writeBlock (outAddr s g) y ∧
      (laneBlock c v t l g s).lanes = s.lanes.set t { l with next := l.next + 1, blk := some y } := by
  simp only [laneBlock, record_mem, record_lanes]
  exact ⟨_, rfl, rfl⟩

/-- The block operation of a lane keeps the lanes in the buffer. -/
theorem laneBlock_fit (c v : Bool) {t g : Nat} {l : Lane} {s : State} (h : LanesFit s) (hl : l ∈ s.lanes)
    (hg : g < numBlocks s) : LanesFit (laneBlock c v t l g s) := by
  obtain ⟨y, hmem, hlanes⟩ := laneBlock_effect c v t l g s
  refine ⟨h.range, hmem ▸ writeBlock_outAddr_wf h.range h.memory hg y, fun l' hl' => ?_⟩
  rw [hlanes] at hl'
  rcases List.mem_or_eq_of_mem_set hl' with hold | rfl
  · exact h.blocks l' hold
  · exact h.blocks l hl

/-- A lane step keeps the lanes in the buffer (R181). -/
theorem laneStep_fit (c v : Bool) (t : Nat) {s : State} (h : LanesFit s) : LanesFit (laneStep c v t s) := by
  unfold laneStep
  split
  · exact h
  · next l hl =>
    have hmem : l ∈ s.lanes := List.mem_of_getElem? hl
    have hb := h.blocks l hmem
    split_ifs with hlt
    · exact laneBlock_fit c v h hmem (by omega)
    · exact h

theorem runLanes_fit (c v : Bool) (n : Nat) {s : State} (h : LanesFit s) : LanesFit (runLanes c v n s) := by
  induction n generalizing s with
  | zero => exact h
  | succ n ih =>
    rw [runLanes]
    split
    · exact h
    · exact ih (laneStep_fit c v _ ⟨h.range, h.memory, h.blocks⟩)

/-- A `PARENC` that runs keeps memory in canonical form. -/
theorem parencRun_mem_wf (c v : Bool) {s : State} (hr : outAddr s (numBlocks s) ≤ 2 ^ 64) (hm : s.mem.wf = true) :
    (parencRun c v s).mem.wf = true := (runLanes_fit c v _ (createLanes_fit hr hm)).memory

/-! The tiler. -/

/-- The output buffer is in range, memory is in canonical form, and the tiler, if there is one, is within the
buffer, as far as `mark` says. -/
structure TilerFits (mark : Tiler → Nat) (s : State) : Prop where
  range : outAddr s (numBlocks s) ≤ 2 ^ 64
  memory : s.mem.wf = true
  blocks : ∀ q, s.tiler = some q → mark q ≤ numBlocks s

/-- The end of the current tile, in blocks. -/
def Tiler.tileEnd (q : Tiler) : Nat := q.offset + q.cnt

theorem TilerFits.onTiler {mark mark' : Tiler → Nat} {f : Tiler → State → State} {s : State} (h : TilerFits mark s)
    (hf : ∀ q, s.tiler = some q → TilerFits mark' (f q s)) : TilerFits mark' (onTiler f s) := by
  unfold Machine.onTiler
  split
  · next hnone => exact ⟨h.range, h.memory, by simp [hnone]⟩
  · next q hq => exact hf q hq

theorem TilerFits.withTiler {mark mark' : Tiler → Nat} {s : State} (h : TilerFits mark s) {q : Tiler}
    (hq : mark' q ≤ numBlocks s) : TilerFits mark' { s with tiler := some q } :=
  ⟨h.range, h.memory, by rintro _ ⟨⟩; exact hq⟩

theorem TilerFits.record {mark : Tiler → Nat} {s : State} (h : TilerFits mark s) (es : List Event) :
    TilerFits mark (record es s) := ⟨h.range, h.memory, h.blocks⟩

theorem TilerFits.withMem {mark : Tiler → Nat} {s : State} (h : TilerFits mark s) {m : Memory} (hm : m.wf = true) :
    TilerFits mark { s with mem := m } := ⟨h.range, hm, h.blocks⟩

theorem tilerSetUp_fits {s : State} (hr : outAddr s (numBlocks s) ≤ 2 ^ 64) (hm : s.mem.wf = true) :
    TilerFits Tiler.offset (tilerSetUp s) :=
  ⟨hr, hm, by rintro _ ⟨⟩; exact Nat.zero_le _⟩

/-- A tile ends in the buffer: `CNT` is at most `N - OFFSET` (spec/46_gpu_batch_tiler.md R201). -/
theorem startTile_fits {s : State} (h : TilerFits Tiler.offset s) : TilerFits Tiler.tileEnd (startTile s) :=
  h.onTiler fun q hq => h.withTiler (by
    have := h.blocks q hq
    simp only [Tiler.tileEnd]
    omega)

theorem loadBlock_fits (i : Nat) {s : State} (h : TilerFits Tiler.tileEnd s) :
    TilerFits Tiler.tileEnd (loadBlock i s) := by
  refine h.onTiler fun q hq => TilerFits.record (h.withTiler ?_) _
  exact h.blocks q hq

theorem loadTile_fits {s : State} (h : TilerFits Tiler.tileEnd s) : TilerFits Tiler.tileEnd (loadTile s) :=
  h.onTiler fun q _ => forUpTo_keeps (fun i _ => loadBlock_fits i) q.cnt h

theorem setArgOffset_fits {s : State} (h : TilerFits Tiler.tileEnd s) : TilerFits Tiler.tileEnd (setArgOffset s) :=
  h.onTiler fun q hq => h.withTiler (h.blocks q hq)

theorem launchKernel_fits {s : State} (h : TilerFits Tiler.tileEnd s) : TilerFits Tiler.tileEnd (launchKernel s) := by
  refine h.onTiler fun q hq => TilerFits.record (h.withTiler ?_) _
  exact h.blocks q hq

theorem workItem_fits (c : Bool) (i : Nat) {s : State} (h : TilerFits Tiler.tileEnd s) :
    TilerFits Tiler.tileEnd (workItem c i s) := by
  refine h.onTiler fun q hq => TilerFits.record (h.withTiler ?_) _
  exact h.blocks q hq

theorem runItems_fits (c : Bool) (n : Nat) {s : State} (h : TilerFits Tiler.tileEnd s) :
    TilerFits Tiler.tileEnd (runItems c n s) := by
  induction n generalizing s with
  | zero => exact h
  | succ n ih =>
    rw [runItems]
    split
    · exact h
    · exact ih (workItem_fits c _ ⟨h.range, h.memory, h.blocks⟩)

theorem runKernel_fits (c : Bool) {s : State} (h : TilerFits Tiler.tileEnd s) :
    TilerFits Tiler.tileEnd (runKernel c s) :=
  have hl := launchKernel_fits h
  hl.onTiler fun q _ => (runItems_fits c q.tile hl).record _

/-- The read-back of a block does not change the tiler (R205). -/
@[simp] theorem readBackBlock_tiler (i : Nat) (s : State) : (readBackBlock i s).tiler = s.tiler := by
  unfold readBackBlock onTiler
  split <;> rfl

/-- The read-back of a block of the current tile writes within the output buffer (R205). -/
theorem readBackBlock_fits {i : Nat} {q : Tiler} {s : State} (h : TilerFits Tiler.tileEnd s) (hq : s.tiler = some q)
    (hi : i < q.cnt) : TilerFits Tiler.tileEnd (readBackBlock i s) := by
  refine h.onTiler fun q' hq' => TilerFits.record (h.withMem ?_) _
  obtain rfl : q = q' := Option.some.inj (hq.symm.trans hq')
  have := h.blocks q hq
  exact writeBlock_outAddr_wf h.range h.memory (by simp only [Tiler.tileEnd] at this; omega) _

/-- The read-back of the blocks of the current tile up to block `n` (R205). -/
theorem readBackBlocks_fit {n : Nat} {q : Tiler} {s : State} (h : TilerFits Tiler.tileEnd s) (hq : s.tiler = some q)
    (hn : n ≤ q.cnt) : TilerFits Tiler.tileEnd (forUpTo readBackBlock n s) := by
  induction n with
  | zero => exact h
  | succ n ih =>
    have keeps : ∀ i u, u.tiler = some q → (readBackBlock i u).tiler = some q := by simp
    have htiler : (forUpTo readBackBlock n s).tiler = some q := forUpTo_keeps keeps n hq
    exact readBackBlock_fits (ih (by omega)) htiler (by omega)

theorem readBack_fits {s : State} (h : TilerFits Tiler.tileEnd s) : TilerFits Tiler.tileEnd (readBack s) :=
  h.onTiler fun _ hq => readBackBlocks_fit h hq (le_refl _)

/-- The next tile starts where the current one ends (R205). -/
theorem advanceTile_fits {s : State} (h : TilerFits Tiler.tileEnd s) : TilerFits Tiler.offset (advanceTile s) :=
  h.onTiler fun q hq => h.withTiler (h.blocks q hq)

theorem oneTile_fits (c : Bool) {s : State} (h : TilerFits Tiler.offset s) : TilerFits Tiler.offset (oneTile c s) :=
  advanceTile_fits (readBack_fits (runKernel_fits c (setArgOffset_fits (loadTile_fits (startTile_fits h)))))

theorem runTiles_fits (c : Bool) (n : Nat) {s : State} (h : TilerFits Tiler.offset s) :
    TilerFits Tiler.offset (runTiles c n s) := by
  induction n generalizing s with
  | zero => exact h
  | succ n ih =>
    rw [runTiles]
    split_ifs
    · exact ih (oneTile_fits c h)
    · exact h

@[simp] theorem tilerFinish_mem (s : State) : (tilerFinish s).mem = s.mem := by
  unfold tilerFinish onTiler
  split <;> rfl

/-- The finish releases the device (spec/46_gpu_batch_tiler.md R206). -/
@[simp] theorem tilerFinish_tiler (s : State) : (tilerFinish s).tiler = none := by
  unfold tilerFinish onTiler
  split
  · assumption
  · rfl

/-- A `GPUDISP` that runs keeps memory in canonical form. -/
theorem gpuRun_mem_wf (c : Bool) {s : State} (hr : outAddr s (numBlocks s) ≤ 2 ^ 64) (hm : s.mem.wf = true) :
    (gpuRun c s).mem.wf = true := by
  rw [gpuRun, tilerFinish_mem]
  exact (runTiles_fits c _ (tilerSetUp_fits hr hm)).memory

@[simp] theorem gpuRun_tiler (c : Bool) (s : State) : (gpuRun c s).tiler = none := tilerFinish_tiler _

end Sys2Proof.Machine
end

section
/-! PROOFS. What a command can do, said once: every next state of `exec` is one of the effects below. -/

namespace Sys2Proof.Machine

/-- `Effect i s t`: command `i` may take the core from `s` to `t`. One constructor for each kind of write. -/
inductive Effect (i : Instr) (s : State) : State → Prop
  /-- The fatal state refuses the command (spec/60_exceptions.md R241). -/
  | refused (hf : s.fatal = true) : Effect i s (refuse s)
  /-- The command raises a fault (R240). -/
  | faulted (e : ErrCode) : Effect i s (raiseFault e s)
  /-- The command responds and writes nothing else. -/
  | responded (v : Block) : Effect i s (respond v s)
  /-- `SRESET` (spec/70_reset_and_hazards.md R260). -/
  | reset (hi : i = .sreset) : Effect i s (respondZero (resetCore s))
  /-- `WRCFG` (spec/47_host_commands.md R218). -/
  | configured (q : CfgReg) (hi : i = .wrcfg q) : Effect i s (respondZero (writeCfg q (wdataLow s) s))
  /-- A command of spec/10_state.md R23 writes `S`. -/
  | blockWritten (hi : i.writesS = true) (v d : Block) : Effect i s (respond d (writeS v s))
  /-- `LDCTR` (spec/47_host_commands.md R222). -/
  | counterLoaded (hi : i = .ldctr) : Effect i s (respondZero { s with regCtr := s.wdata, ctrV := true })
  /-- `LDKEY` (spec/41_key_schedule_table.md R109). -/
  | keyLoaded (hi : i = .ldkey) :
      Effect i s (respondZero { s with regKey := s.wdata, keyV := true, rkv := 0#11, ikV := false })
  /-- `KSEED` (R110). -/
  | seeded (hi : i.derivesSchedule = true) (hk : s.keyV = true) : Effect i s (respondZero (writeRk 0 s.regKey s))
  /-- `KSTEPT` or `KASSIST` for round key `r + 1` (R111, spec/42_key_schedule_assisted.md R124). -/
  | stepped (hi : i.derivesSchedule = true) (r : Nat) (hr : r + 1 ≤ 10) (hp : rkValid s r = true) :
      Effect i s (respondZero (writeRk (r + 1) (nextRoundKeyT (rkAt s r) (r + 1)) s))
  /-- `KEXPT` or `KEXPV` (R112, R125). -/
  | expanded (hi : i.derivesSchedule = true) (hk : s.keyV = true) :
      Effect i s (respondZero (writeSchedule (schedule (derivedKey s)) s))
  /-- `KINV` (R126). -/
  | inverted (hi : i = .kinv) (hs : ksValid s = true) :
      Effect i s (respondZero { s with ik := schedule (inverseRoundKey (rkAt s)), ikV := true })
  /-- `STBLK` (spec/47_host_commands.md R224). -/
  | blockStored (idx : BitVec 24) (hi : i = .stblk idx) (hn : idx.toNat < numBlocks s)
      (hr : buffersInRange s = true) :
      Effect i s (respondZero { s with mem := s.mem.writeBlock (outAddr s idx.toNat) s.regS })
  /-- `PARENC` (spec/45_parallel_partitioner.md R176). -/
  | partitioned (c v : Bool) (hi : i = .parenc c v) (hr : buffersInRange s = true) :
      Effect i s (respondZero (parencRun c v s))
  /-- `GPUDISP` (spec/46_gpu_batch_tiler.md R196). -/
  | dispatched (c : Bool) (hi : i = .gpudisp c) (hr : buffersInRange s = true) :
      Effect i s (respondZero (gpuRun c s))

namespace Effect

variable {i : Instr} {s t : State} {body : State → State}

/-! The frame of a command: each of its tests raises a fault or lets the command go on. -/

theorem of_command (h : command body s = .next t) (hb : Effect i s (body s)) : Effect i s t := by
  rcases command_next h with ⟨hf, rfl⟩ | ⟨-, rfl⟩
  · exact .refused hf
  · exact hb

theorem of_commandAlways (h : commandAlways body s = .next t) (hb : Effect i s (body s)) : Effect i s t :=
  Host.Outcome.next.inj h ▸ hb

theorem of_legal {ok : Bool} (hb : ok = true → Effect i s (body s)) : Effect i s (legal ok body s) := by
  rcases legal_cases ok body s with ⟨hok, h⟩ | ⟨-, h⟩ <;> rw [h]
  · exact hb hok
  · exact .faulted _

theorem of_require {valid : State → Bool} (hb : valid s = true → Effect i s (body s)) :
    Effect i s (require valid body s) := by
  rcases require_cases valid body s with ⟨hv, h⟩ | ⟨-, h⟩ <;> rw [h]
  · exact hb hv
  · exact .faulted _

theorem of_blockAccess {addr : State → Nat → Nat} {n : Nat}
    (hb : n < numBlocks s → buffersInRange s = true → Effect i s (body s)) :
    Effect i s (blockAccess addr n body s) := by
  rcases blockAccess_cases addr n body s with ⟨⟨hn, -, hr⟩, h⟩ | ⟨-, h⟩ <;> rw [h]
  · exact hb hn hr
  · exact .faulted _

theorem of_checkAll {tests : State → List (Bool × ErrCode)}
    (hb : (∀ q ∈ tests s, q.1 = true) → Effect i s (body s)) : Effect i s (checkAll tests body s) := by
  rcases checkAll_cases tests body s with ⟨hn, h⟩ | ⟨e, -, h⟩ <;> rw [h]
  · exact hb ((firstFailure_none_iff _).mp hn)
  · exact .faulted e

/-! The bodies that several commands share. -/

/-- A write of `S` alone keeps `S_V`, which is 1 already (spec/43_round_primitives.md R143). -/
theorem of_regS (hi : i.writesS = true) (hv : s.sV = true) (v d : Block) :
    Effect i s (respond d { s with regS := v }) := by
  have h : writeS v s = { s with regS := v } := by rw [writeS, ← hv]
  exact h ▸ .blockWritten hi v d

theorem of_transformS (hi : i.writesS = true) (f : State → Block → Block) : Effect i s (transformS f s) :=
  of_require fun hv => of_regS hi hv _ _

theorem of_forwardRound (hi : i.writesS = true) (f : Block → Block → Block) (r : Nat) :
    Effect i s (forwardRound f r s) :=
  of_legal fun _ => of_require fun hv => of_require fun _ => of_regS hi hv _ _

theorem of_inverseRound (hi : i.writesS = true) (f : Block → Block → Block) (r : Nat) :
    Effect i s (inverseRound f r s) :=
  of_legal fun _ => of_require fun hv => of_require fun _ => of_regS hi hv _ _

theorem of_wholeBlock (hi : i.writesS = true) (ok : State → Bool) (f : State → Block → Option Block → Block)
    (c : Bool) : Effect i s (wholeBlock ok f c s) :=
  of_require fun hv => of_require fun _ => of_require fun _ => of_regS hi hv _ _

theorem of_stepSchedule (hi : i.derivesSchedule = true) (r : Nat) : Effect i s (stepSchedule nextRoundKeyT r s) := by
  refine of_legal fun hr => of_require fun hp => ?_
  simp only [stepIndexOk, Bool.and_eq_true, decide_eq_true_eq] at hr
  obtain ⟨r, rfl⟩ : ∃ r', r = r' + 1 := ⟨r - 1, by omega⟩
  exact .stepped hi r hr.2 hp

theorem of_expandSchedule (hi : i.derivesSchedule = true) : Effect i s (expandSchedule nextRoundKeyT s) :=
  of_require fun hk => .expanded hi hk

end Effect

/-- Every next state of a command is one of its effects. -/
theorem exec_effect {i : Instr} {s t : State} (h : exec i s = .next t) : Effect i s t := by
  cases i with
  | nop => exact .of_command h (.responded _)
  | rdstat => exact .of_commandAlways h (.responded _)
  | wrcfg sel => exact .of_command h (.of_legal fun _ => .configured sel rfl)
  | rdcfg sel => exact .of_command h (.responded _)
  | sreset =>
    rw [exec, execSreset] at h
    exact .of_commandAlways h (.reset rfl)
  | gfmul a b => exact .of_command h (.responded _)
  | gfmul2 a => exact .of_command h (.responded _)
  | gfmul3 a => exact .of_command h (.responded _)
  | ldkey =>
    rw [exec, execLdkey] at h
    exact .of_command h (.keyLoaded rfl)
  | kseed => exact .of_command h (.of_require fun hk => .seeded rfl hk)
  | kstept r => exact .of_command h (.of_stepSchedule rfl r)
  | kexpt => exact .of_command h (.of_expandSchedule rfl)
  | kassist r => exact .of_command h (nextRoundKeyV_eq_nextRoundKeyT ▸ .of_stepSchedule rfl r)
  | kexpv => exact .of_command h (nextRoundKeyV_eq_nextRoundKeyT ▸ .of_expandSchedule rfl)
  | kinv => exact .of_command h (.of_require fun hs => .inverted rfl hs)
  | rdrk r => exact .of_command h (.of_legal fun _ => .of_require fun _ => .responded _)
  | rdik r => exact .of_command h (.of_legal fun _ => .of_require fun _ => .responded _)
  | lds =>
    rw [exec, execLds] at h
    exact .of_command h (.blockWritten rfl _ _)
  | rds => exact .of_command h (.of_require fun _ => .responded _)
  | ldctr =>
    rw [exec, execLdctr] at h
    exact .of_command h (.counterLoaded rfl)
  | ldblk idx => exact .of_command h (.of_blockAccess fun _ _ => .blockWritten rfl _ _)
  | stblk idx => exact .of_command h (.of_require fun _ => .of_blockAccess fun hn hr => .blockStored idx rfl hn hr)
  | subb => exact .of_command h (.of_transformS rfl _)
  | shrow => exact .of_command h (.of_transformS rfl _)
  | mixcol => exact .of_command h (.of_transformS rfl _)
  | addrk r => exact .of_command h (.of_forwardRound rfl _ r)
  | isubb => exact .of_command h (.of_transformS rfl _)
  | ishrow => exact .of_command h (.of_transformS rfl _)
  | imixcol => exact .of_command h (.of_transformS rfl _)
  | xctr => exact .of_command h (.of_require fun hv => .of_require fun _ => .of_regS rfl hv _ _)
  | venc r => exact .of_command h (.of_forwardRound rfl _ r)
  | venclast r => exact .of_command h (.of_forwardRound rfl _ r)
  | vdec r => exact .of_command h (.of_inverseRound rfl _ r)
  | vdeclast r => exact .of_command h (.of_inverseRound rfl _ r)
  | enct c => exact .of_command h (.of_wholeBlock rfl _ _ c)
  | encv c => exact .of_command h (.of_wholeBlock rfl _ _ c)
  | decv c => exact .of_command h (.of_wholeBlock rfl _ _ c)
  | parenc c v =>
    refine .of_command h (.of_checkAll fun hall => .partitioned c v rfl ?_)
    exact hall (buffersInRange s, .range) (by simp [parencTests])
  | gpudisp c =>
    refine .of_command h (.of_checkAll fun hall => .dispatched c rfl ?_)
    exact hall (buffersInRange s, .range) (by simp [gpuTests])

end Sys2Proof.Machine
end

section
/-! PROOFS. The invariant of the machine: it holds after reset, and every effect of a command and every move of the
host keeps it (spec/10_state.md R25, R26, R32, R33, R42). -/

namespace Sys2Proof.Machine

/-! Reset. -/

theorem reset_hasResetValues : State.reset.hasResetValues := by
  simp [State.hasResetValues, State.noBulkState, State.reset]

theorem resetCore_hasResetValues (s : State) : (resetCore s).hasResetValues := by
  simp [State.hasResetValues, State.noBulkState]

/-- The values of R42 meet the invariant, whatever the registers hold that R42 gives no value. -/
theorem State.hasResetValues.inv {s : State} (h : s.hasResetValues) (hm : s.mem.wf = true) : s.Inv := by
  obtain ⟨-, -, -, hrkv, hikV, hfatal, herr, -, -, -, -, -, -, -, hbulk⟩ := h
  refine ⟨hm, fun r _ hr => ?_, fun hi => ?_, ⟨fun _ => herr, fun hf => ?_⟩, hbulk⟩
  · simp [rkValid, hrkv] at hr
  · simp [hikV] at hi
  · simp [hfatal] at hf

/-! The key schedule. -/

theorem rkValid_writeRk (r j : Nat) (v : Block) (s : State) (hj : j ≤ 10) :
    rkValid (writeRk r v s) j = (rkValid s j || decide (j = r)) := setRkv_getLsbD s.rkv hj

theorem rkAt_writeRk (s : State) {r j : Nat} (v : Block) (hr : r ≤ 10) (hj : j ≤ 10) :
    rkAt (writeRk r v s) j = if j = r then v else rkAt s j := roundKey_setRoundKey s.rk v hr hj

/-- A whole valid schedule stays valid under the write of a round key. -/
theorem ksValid_writeRk {s : State} (h : ksValid s = true) (r : Nat) (v : Block) : ksValid (writeRk r v s) = true := by
  rw [ksValid_iff] at *
  intro j hj
  simp [rkValid_writeRk _ _ _ _ hj, h j hj]

/-- The write of a round key that is the one of `KEY` keeps the schedule that of `KEY` (spec/10_state.md R25). -/
theorem scheduleOfKey_writeRk {s : State} (h : s.scheduleOfKey) {r : Nat} (hr : r ≤ 10) (hk : s.keyV = true) :
    (writeRk r (derivedKey s r) s).scheduleOfKey := by
  intro j hj hv
  rw [rkValid_writeRk _ _ _ _ hj] at hv
  refine ⟨hk, ?_⟩
  rw [rkAt_writeRk s _ hr hj]
  split_ifs with e
  · rw [e]; rfl
  · exact (h j hj (by simpa [e] using hv)).2

/-- Entry `r` of the inverse schedule depends on entry `r` of the schedule only (spec/10_state.md R26). -/
theorem inverseRoundKey_congr {f g : Nat → Block} {r : Nat} (h : f r = g r) :
    inverseRoundKey f r = inverseRoundKey g r := by
  simp only [inverseRoundKey, h]

/-! Each write keeps the invariant. -/

section
variable {s : State}

theorem respond_inv (h : s.Inv) (v : Block) : (respond v s).Inv :=
  ⟨h.memory, h.schedule, h.inverse, h.errCode, h.bulk⟩

theorem refuse_inv (h : s.Inv) : (refuse s).Inv :=
  ⟨h.memory, h.schedule, h.inverse, h.errCode, h.bulk⟩

theorem raiseFault_inv (h : s.Inv) (e : ErrCode) : (raiseFault e s).Inv :=
  ⟨h.memory, h.schedule, h.inverse, ⟨by simp, fun _ => ⟨e, rfl⟩⟩, h.bulk⟩

theorem withMem_inv (h : s.Inv) {m : Memory} (hm : m.wf = true) : State.Inv { s with mem := m } :=
  ⟨hm, h.schedule, h.inverse, h.errCode, h.bulk⟩

/-- A round key of `KEY` written keeps the invariant. -/
theorem writeRk_inv (h : s.Inv) {r : Nat} (hr : r ≤ 10) (hk : s.keyV = true) : (writeRk r (derivedKey s r) s).Inv :=
  ⟨h.memory, scheduleOfKey_writeRk h.schedule hr hk,
    fun hi => ⟨ksValid_writeRk (h.inverse hi).1 r _, (h.inverse hi).2⟩, h.errCode, h.bulk⟩

/-- The whole schedule of `KEY` written keeps the invariant. -/
theorem writeSchedule_inv (h : s.Inv) (hk : s.keyV = true) : (writeSchedule (schedule (derivedKey s)) s).Inv :=
  ⟨h.memory, fun _ hr _ => ⟨hk, roundKey_schedule _ hr⟩, fun hi => ⟨rfl, (h.inverse hi).2⟩, h.errCode, h.bulk⟩

/-- The inverse of a whole valid schedule written keeps the invariant. -/
theorem writeInverse_inv (h : s.Inv) (hs : ksValid s = true) :
    State.Inv { s with ik := schedule (inverseRoundKey (rkAt s)), ikV := true } := by
  refine ⟨h.memory, h.schedule, fun _ => ⟨hs, fun r hr => ?_⟩, h.errCode, h.bulk⟩
  have hkey : rkAt s r = derivedKey s r := (h.schedule r hr ((ksValid_iff s).mp hs r hr)).2
  exact (roundKey_schedule _ hr).trans (inverseRoundKey_congr hkey)

/-- A new key discards both schedules, which keeps the invariant. -/
theorem loadKey_inv (h : s.Inv) (k : Block) :
    State.Inv { s with regKey := k, keyV := true, rkv := 0#11, ikV := false } :=
  ⟨h.memory, fun r _ hr => by simp [rkValid] at hr, fun hi => by simp at hi, h.errCode, h.bulk⟩

/-- A `PARENC` that runs keeps the invariant: its lanes are gone (spec/10_state.md R32). -/
theorem parencRun_inv (h : s.Inv) (hr : buffersInRange s = true) (c v : Bool) : (parencRun c v s).Inv := by
  have hwf := parencRun_mem_wf c v ((buffersInRange_iff s).mp hr).2 h.memory
  rw [parencRun_frame c v s]
  exact ⟨hwf, h.schedule, h.inverse, h.errCode, parencRun_lanes c v s, h.bulk.2⟩

/-- A `GPUDISP` that runs keeps the invariant: its tiler is gone (spec/10_state.md R33). -/
theorem gpuRun_inv (h : s.Inv) (hr : buffersInRange s = true) (c : Bool) : (gpuRun c s).Inv := by
  have hwf := gpuRun_mem_wf c ((buffersInRange_iff s).mp hr).2 h.memory
  rw [gpuRun_frame c s]
  exact ⟨hwf, h.schedule, h.inverse, h.errCode, h.bulk.1, gpuRun_tiler c s⟩

end

/-- Every effect of a command keeps the invariant. -/
theorem Effect.inv {i : Instr} {s t : State} (h : Effect i s t) (hs : s.Inv) : t.Inv := by
  cases h with
  | refused hf => exact refuse_inv hs
  | faulted e => exact raiseFault_inv hs e
  | responded v => exact respond_inv hs v
  | reset hi => exact respond_inv ((resetCore_hasResetValues s).inv hs.memory) _
  | configured q hi =>
    rw [writeCfg_frame]
    exact ⟨hs.memory, hs.schedule, hs.inverse, hs.errCode, hs.bulk⟩
  | blockWritten hi v d => exact ⟨hs.memory, hs.schedule, hs.inverse, hs.errCode, hs.bulk⟩
  | counterLoaded hi => exact ⟨hs.memory, hs.schedule, hs.inverse, hs.errCode, hs.bulk⟩
  | keyLoaded hi => exact respond_inv (loadKey_inv hs _) _
  | seeded hi hk => exact respond_inv (writeRk_inv hs (Nat.zero_le _) hk) _
  | stepped hi r hr hp =>
    obtain ⟨hk, hkey⟩ := hs.schedule r (by omega) hp
    rw [hkey]
    exact respond_inv (writeRk_inv hs hr hk) _
  | expanded hi hk => exact respond_inv (writeSchedule_inv hs hk) _
  | inverted hi hv => exact respond_inv (writeInverse_inv hs hv) _
  | blockStored idx hi hn hr =>
    have hwf := writeBlock_outAddr_wf ((buffersInRange_iff s).mp hr).2 hs.memory hn s.regS
    exact respond_inv (withMem_inv hs hwf) _
  | partitioned c v hi hr => exact respond_inv (parencRun_inv hs hr c v) _
  | dispatched c hi hr => exact respond_inv (gpuRun_inv hs hr c) _

/-- An illegal command word faults or is refused, which keeps the invariant. -/
theorem illegalCommand_inv {s t : State} (hs : s.Inv) (h : illegalCommand s = .next t) : t.Inv := by
  rcases command_next h with ⟨-, rfl⟩ | ⟨-, rfl⟩
  · exact refuse_inv hs
  · exact raiseFault_inv hs _

/-- Settles O57: a command has one of the effects of `exec_effect`, each of which keeps the invariant, and the host's
other moves keep it too. -/
theorem stepKeepsTheInvariant : Obligations.StepKeepsTheInvariant := by
  intro s t hs h
  cases hhost : s.host with
  | nil =>
    rw [step_idle hhost] at h
    exact Host.Outcome.next.inj h ▸ hs
  | cons move rest =>
    cases move with
    | command cmd w =>
      rw [step_command hhost] at h
      have hs' : (present w rest s).Inv := ⟨hs.memory, hs.schedule, hs.inverse, hs.errCode, hs.bulk⟩
      cases hd : decode cmd with
      | ok i =>
        rw [issue_ok hd] at h
        exact (exec_effect h).inv hs'
      | error e =>
        rw [issue_error hd] at h
        exact illegalCommand_inv hs' h
    | rst =>
      rw [step_rst hhost] at h
      exact Host.Outcome.next.inj h ▸ (resetCore_hasResetValues _).inv hs.memory
    | store addr b =>
      rw [step_store hhost] at h
      have hwf := write_wf hs.memory addr.isLt b
      exact Host.Outcome.next.inj h ▸ ⟨hwf, hs.schedule, hs.inverse, hs.errCode, hs.bulk⟩

/-- Settles O56: the values after reset are those of R42. -/
theorem resetMeetsTheInvariant : Obligations.ResetMeetsTheInvariant :=
  reset_hasResetValues.inv reset_mem_wf

end Sys2Proof.Machine
end

section
/-! PROOFS. Which commands write which register, and the status word (spec/10_state.md R23 to R31). -/

namespace Sys2Proof.Machine

theorem writeCfg_nBlocks (q : CfgReg) (v : Word64) (s : State) :
    (writeCfg q v s).nBlocks = if q = .nBlocks then v else s.nBlocks := by cases q <;> rfl

theorem writeCfg_threads (q : CfgReg) (v : Word64) (s : State) :
    (writeCfg q v s).threads = if q = .threads then v else s.threads := by cases q <;> rfl

theorem writeCfg_inBase (q : CfgReg) (v : Word64) (s : State) :
    (writeCfg q v s).inBase = if q = .inBase then v else s.inBase := by cases q <;> rfl

theorem writeCfg_outBase (q : CfgReg) (v : Word64) (s : State) :
    (writeCfg q v s).outBase = if q = .outBase then v else s.outBase := by cases q <;> rfl

/-- Settles O58: each effect of a command writes the registers of its own commands only. -/
theorem registersAndTheirWriters : Obligations.RegistersAndTheirWriters := by
  intro i s t h
  cases exec_effect h with
  | refused hf => simp
  | faulted e => simp
  | responded v => simp
  | reset hi => simp [hi]
  | configured q hi =>
    subst hi
    rw [writeCfg_frame]
    simp +contextual [writeCfg_nBlocks, writeCfg_threads, writeCfg_inBase, writeCfg_outBase]
  | blockWritten hi v d => simp [hi]
  | counterLoaded hi => simp [hi]
  | keyLoaded hi => simp [hi]
  | seeded hi hk => simp [hi]
  | stepped hi r hr hp => simp [hi]
  | expanded hi hk => simp [hi]
  | inverted hi hs => simp [hi]
  | blockStored idx hi hn hr => simp
  | partitioned c v hi hr =>
    rw [parencRun_frame c v s]
    simp
  | dispatched c hi hr =>
    rw [gpuRun_frame c s]
    simp [hi]

/-- The bits of the status word: the flags, `ERRCODE` from bit 8 on, `RKV` from bit 16 on (spec/10_state.md R30). -/
theorem statusWord_getLsbD (s : State) (i : Nat) :
    (statusWord s).getLsbD i =
      if i = 0 then s.fatal else if i = 1 then s.keyV else if i = 2 then s.sV else if i = 3 then s.ctrV
      else if i = 4 then s.ikV else if i < 8 then false else if i < 16 then s.errCode.getLsbD (i - 8)
      else s.rkv.getLsbD (i - 16) := by
  simp only [statusWord, BitVec.getLsbD_append, BitVec.getLsbD_ofBool, BitVec.getLsbD_zero]
  by_cases h : i < 5
  · interval_cases i <;> simp
  · obtain ⟨j, rfl⟩ : ∃ j, i = j + 5 := ⟨i - 5, by omega⟩
    grind

theorem statusWord_errCode (s : State) : (statusWord s).extractLsb' 8 8 = s.errCode := by
  apply BitVec.eq_of_getLsbD_eq
  intro i hi
  rw [BitVec.getLsbD_extractLsb', statusWord_getLsbD]
  grind

/-- Settles O18: the fields of the status word, bit by bit. -/
theorem rdstatRespondsStatusWord : Obligations.RdstatRespondsStatusWord := by
  intro s
  refine ⟨statusWord s, rfl, ?_, ?_, ?_, ?_, ?_, ?_, statusWord_errCode s, ?_, ?_, ?_⟩
  · rw [statusWord_getLsbD]; rfl
  · rw [statusWord_getLsbD]; rfl
  · rw [statusWord_getLsbD]; rfl
  · rw [statusWord_getLsbD]; rfl
  · rw [statusWord_getLsbD]; rfl
  · apply BitVec.eq_of_getLsbD_eq
    intro i hi
    rw [BitVec.getLsbD_extractLsb', statusWord_getLsbD]
    grind
  · intro r hr
    rw [statusWord_getLsbD]
    grind
  · apply BitVec.eq_of_getLsbD_eq
    intro i hi
    rw [BitVec.getLsbD_extractLsb', statusWord_getLsbD]
    grind
  · intro hinv hlive
    obtain ⟨hzero, -⟩ := hinv.errCode
    rw [statusWord_errCode, hzero hlive]

end Sys2Proof.Machine
end

section
/-! PROOFS. Host memory is written in the output buffer only (spec/20_memory.md R50, R51). No form of memory is assumed:
the proofs follow where the blocks that the agents of a bulk command write lie. -/

namespace Sys2Proof.Machine

/-! The output buffer. -/

/-- Address `a` lies outside the output buffer. -/
def OutsideOutput (s : State) (a : Nat) : Prop := a < s.outBase.toNat ∨ outAddr s (numBlocks s) ≤ a

/-- The write of a block of the output buffer writes no byte outside it. -/
theorem read_writeBlock_outAddr {s : State} {g a : Nat} (hg : g < numBlocks s) (ha : OutsideOutput s a) (v : Block) :
    Memory.read (s.mem.writeBlock (outAddr s g) v) a = s.mem.read a := by
  apply read_writeBlock_outside
  simp only [OutsideOutput, outAddr] at ha ⊢
  omega

/-- `t` has the output buffer of `s`, and the memory of `s` outside it. -/
structure OutputOnly (s t : State) : Prop where
  base : t.outBase = s.outBase
  size : t.nBlocks = s.nBlocks
  others : ∀ a, OutsideOutput s a → t.mem.read a = s.mem.read a

theorem TilerFrame.outBase_eq {s t : State} (h : TilerFrame s t) : t.outBase = s.outBase := by
  rw [TilerFrame] at h
  rw [h]

theorem TilerFrame.nBlocks_eq {s t : State} (h : TilerFrame s t) : t.nBlocks = s.nBlocks := by
  rw [TilerFrame] at h
  rw [h]

namespace OutputOnly

variable {s t u : State}

theorem refl (s : State) : OutputOnly s s := ⟨rfl, rfl, fun _ _ => rfl⟩

theorem trans (h : OutputOnly s t) (h' : OutputOnly t u) : OutputOnly s u where
  base := h'.base.trans h.base
  size := h'.size.trans h.size
  others a ha := by
    have ha' : OutsideOutput t a := by
      simpa only [OutsideOutput, outAddr, numBlocks, h.base, h.size] using ha
    exact (h'.others a ha').trans (h.others a ha)

theorem numBlocks_eq (h : OutputOnly s t) : numBlocks t = numBlocks s := congrArg BitVec.toNat h.size

theorem of_writeBlock {g : Nat} {v : Block} (hg : g < numBlocks s) (hbase : t.outBase = s.outBase)
    (hsize : t.nBlocks = s.nBlocks) (hmem : t.mem = s.mem.writeBlock (outAddr s g) v) : OutputOnly s t where
  base := hbase
  size := hsize
  others a ha := by
    rw [hmem]
    exact read_writeBlock_outAddr hg ha v

/-- A step that leaves memory alone writes no byte at all. -/
theorem of_mem_eq (hbase : t.outBase = s.outBase) (hsize : t.nBlocks = s.nBlocks) (hmem : t.mem = s.mem) :
    OutputOnly s t := ⟨hbase, hsize, fun _ _ => by rw [hmem]⟩

theorem of_tilerFrame (h : TilerFrame s t) (hmem : t.mem = s.mem) : OutputOnly s t :=
  of_mem_eq h.outBase_eq h.nBlocks_eq hmem

end OutputOnly

/-! The partitioner. -/

/-- Every lane has blocks of the buffer only. -/
def LanesWithin (s : State) : Prop := ∀ l ∈ s.lanes, l.start + l.count ≤ numBlocks s

/-- The slices of the lanes created lie in the buffer, whatever memory holds. -/
theorem createLanes_within {s : State} (hr : outAddr s (numBlocks s) ≤ 2 ^ 64) : LanesWithin (createLanes s) :=
  (createLanes_fit (s := { s with mem := [] }) hr rfl).blocks

/-- A lane step does nothing, or is the block operation on the next block of a lane that has blocks left
(spec/45_parallel_partitioner.md R181). -/
theorem laneStep_cases (c v : Bool) (t : Nat) (s : State) :
    laneStep c v t s = s ∨ ∃ l ∈ s.lanes, l.next < l.count ∧
      laneStep c v t s = laneBlock c v t l (l.start + l.next) s := by
  unfold laneStep
  split
  · exact .inl rfl
  · next l hl =>
    split_ifs with hlt
    · exact .inr ⟨l, List.mem_of_getElem? hl, hlt, rfl⟩
    · exact .inl rfl

/-- A lane step writes in the output buffer only, and the lanes stay within their blocks. -/
theorem laneStep_output (c v : Bool) (t : Nat) {s : State} (hw : LanesWithin s) :
    OutputOnly s (laneStep c v t s) ∧ LanesWithin (laneStep c v t s) := by
  rcases laneStep_cases c v t s with h | ⟨l, hl, hlt, h⟩ <;> rw [h]
  · exact ⟨.refl s, hw⟩
  · have hb := hw l hl
    obtain ⟨y, hmem, hlanes⟩ := laneBlock_effect c v t l (l.start + l.next) s
    have hg : l.start + l.next < numBlocks s := by omega
    refine ⟨.of_writeBlock hg rfl rfl hmem, fun l' hl' => ?_⟩
    rw [hlanes] at hl'
    rcases List.mem_or_eq_of_mem_set hl' with hold | rfl
    · exact hw l' hold
    · exact hb

theorem runLanes_output (c v : Bool) (n : Nat) {s : State} (hw : LanesWithin s) : OutputOnly s (runLanes c v n s) := by
  induction n generalizing s with
  | zero => exact .refl s
  | succ n ih =>
    rw [runLanes]
    split
    · exact .refl s
    · next t _ =>
      obtain ⟨hout, hw'⟩ := laneStep_output c v t (s := { s with sched := s.sched.tail }) hw
      have hs : OutputOnly s { s with sched := s.sched.tail } := .of_mem_eq rfl rfl rfl
      exact hs.trans (hout.trans (ih hw'))

/-- A `PARENC` that runs writes in the output buffer only. -/
theorem parencRun_output (c v : Bool) {s : State} (hr : outAddr s (numBlocks s) ≤ 2 ^ 64) :
    OutputOnly s (parencRun c v s) :=
  have hcreate : OutputOnly s (createLanes s) := .of_mem_eq rfl rfl rfl
  have hjoin : ∀ u, OutputOnly u (joinLanes u) := fun _ => .of_mem_eq rfl rfl rfl
  hcreate.trans ((runLanes_output c v _ (createLanes_within hr)).trans (hjoin _))

/-! The tiler: what runs on a tile between its start and its read-back leaves host memory and the tile alone. -/

/-- The blocks of the current tile: the first one and how many. -/
def Tiler.span (q : Tiler) : Nat × Nat := (q.offset, q.cnt)

/-- `t` has the memory of `s` and the current tile of `s`. -/
structure TileKept (s t : State) : Prop where
  frame : TilerFrame s t
  memory : t.mem = s.mem
  span : t.tiler.map Tiler.span = s.tiler.map Tiler.span

namespace TileKept

variable {s t u : State}

theorem refl (s : State) : TileKept s s := ⟨.refl s, rfl, rfl⟩

theorem trans (h : TileKept s t) (h' : TileKept t u) : TileKept s u :=
  ⟨h.frame.trans h'.frame, h'.memory.trans h.memory, h'.span.trans h.span⟩

theorem onTiler {f : Tiler → State → State} (hf : ∀ q, s.tiler = some q → TileKept s (f q s)) :
    TileKept s (onTiler f s) := by
  unfold Machine.onTiler
  split
  · exact .refl s
  · next q hq => exact hf q hq

/-- An update of the tiler that keeps its tile, with the events it records. -/
theorem withTiler {q q' : Tiler} (hq : s.tiler = some q) (hspan : q'.span = q.span) (es : List Event) :
    TileKept s (record es { s with tiler := some q' }) :=
  ⟨rfl, rfl, by rw [hq]; exact congrArg some hspan⟩

end TileKept

theorem loadBlock_kept (i : Nat) (s : State) : TileKept s (loadBlock i s) :=
  .onTiler fun _ hq => .withTiler hq (by rfl) _

theorem loadTile_kept (s : State) : TileKept s (loadTile s) :=
  .onTiler fun q _ => forUpTo_keeps (P := TileKept s) (fun i u h => h.trans (loadBlock_kept i u)) q.cnt (.refl s)

theorem setArgOffset_kept (s : State) : TileKept s (setArgOffset s) :=
  .onTiler fun _ hq => .withTiler hq (by rfl) []

theorem launchKernel_kept (s : State) : TileKept s (launchKernel s) :=
  .onTiler fun _ hq => .withTiler hq (by rfl) _

theorem workItem_kept (c : Bool) (i : Nat) (s : State) : TileKept s (workItem c i s) :=
  .onTiler fun _ hq => .withTiler hq (by rfl) _

theorem runItems_kept (c : Bool) (n : Nat) (s : State) : TileKept s (runItems c n s) := by
  induction n generalizing s with
  | zero => exact .refl s
  | succ n ih =>
    rw [runItems]
    split
    · exact .refl s
    · have hs : TileKept s { s with sched := s.sched.tail } := ⟨rfl, rfl, rfl⟩
      exact hs.trans ((workItem_kept c _ _).trans (ih _))

theorem runKernel_kept (c : Bool) (s : State) : TileKept s (runKernel c s) :=
  (launchKernel_kept s).trans <| .onTiler fun q _ => (runItems_kept c q.tile _).trans ⟨rfl, rfl, rfl⟩

/-! The tiler: what it writes. -/

/-- The current tile holds no more blocks than the buffer has from `OFFSET` on. -/
def TileWithin (s : State) : Prop := ∀ q, s.tiler = some q → q.cnt ≤ numBlocks s - q.offset

theorem TileKept.within {s t : State} (h : TileKept s t) (hw : TileWithin s) : TileWithin t := by
  intro q hq
  have hspan := h.span
  rw [hq] at hspan
  obtain ⟨q₀, hq₀, he⟩ := Option.map_eq_some_iff.mp hspan.symm
  obtain ⟨hoff, hcnt⟩ := Prod.mk.inj he
  have hn : numBlocks t = numBlocks s := congrArg BitVec.toNat h.frame.nBlocks_eq
  rw [← hoff, ← hcnt, hn]
  exact hw q₀ hq₀

@[simp] theorem startTile_mem (s : State) : (startTile s).mem = s.mem := by
  unfold startTile onTiler
  split <;> rfl

@[simp] theorem advanceTile_mem (s : State) : (advanceTile s).mem = s.mem := by
  unfold advanceTile onTiler
  split <;> rfl

/-- `CNT` is at most `N - OFFSET` (spec/46_gpu_batch_tiler.md R201). -/
theorem startTile_within (s : State) : TileWithin (startTile s) := by
  unfold startTile onTiler
  split
  · next hnone => intro q hq; simp [hnone] at hq
  · rintro _ ⟨⟩; exact Nat.min_le_right _ _

/-- The read-back of a block writes this block of the buffer (R205). -/
theorem readBackBlock_mem (i : Nat) {q : Tiler} {s : State} (hq : s.tiler = some q) :
    (readBackBlock i s).mem = s.mem.writeBlock (outAddr s (q.offset + i)) (devRead q.devOut i) := by
  simp only [readBackBlock, onTiler, hq, record_mem]

theorem readBackBlock_output {i : Nat} {q : Tiler} {s : State} (hq : s.tiler = some q)
    (hi : q.offset + i < numBlocks s) : OutputOnly s (readBackBlock i s) :=
  have hframe := readBackBlock_frame i s
  .of_writeBlock hi hframe.outBase_eq hframe.nBlocks_eq (readBackBlock_mem i hq)

/-- The read-back of the blocks of the current tile up to block `n` (R205). -/
theorem readBackBlocks_output {n : Nat} {q : Tiler} {s : State} (hq : s.tiler = some q)
    (hn : n ≤ numBlocks s - q.offset) : OutputOnly s (forUpTo readBackBlock n s) := by
  induction n with
  | zero => exact .refl s
  | succ n ih =>
    have hout := ih (by omega)
    have keeps : ∀ i u, u.tiler = some q → (readBackBlock i u).tiler = some q := by simp
    have htiler : (forUpTo readBackBlock n s).tiler = some q := forUpTo_keeps keeps n hq
    exact hout.trans (readBackBlock_output htiler (by rw [hout.numBlocks_eq]; omega))

theorem readBack_output {s : State} (hw : TileWithin s) : OutputOnly s (readBack s) := by
  unfold readBack onTiler
  split
  · exact .refl s
  · next q hq => exact readBackBlocks_output hq (hw q hq)

/-- A tile writes in the output buffer only, wherever it starts. -/
theorem oneTile_output (c : Bool) (s : State) : OutputOnly s (oneTile c s) := by
  have hstart : OutputOnly s (startTile s) := .of_tilerFrame (startTile_frame s) (startTile_mem s)
  have hkept : TileKept (startTile s) (runKernel c (setArgOffset (loadTile (startTile s)))) :=
    (loadTile_kept _).trans ((setArgOffset_kept _).trans (runKernel_kept c _))
  have hback := readBack_output (hkept.within (startTile_within s))
  have hadvance : ∀ u, OutputOnly u (advanceTile u) := fun u =>
    .of_tilerFrame (advanceTile_frame u) (advanceTile_mem u)
  exact hstart.trans ((OutputOnly.of_tilerFrame hkept.frame hkept.memory).trans (hback.trans (hadvance _)))

theorem runTiles_output (c : Bool) (n : Nat) (s : State) : OutputOnly s (runTiles c n s) := by
  induction n generalizing s with
  | zero => exact .refl s
  | succ n ih =>
    rw [runTiles]
    split_ifs
    · exact (oneTile_output c s).trans (ih _)
    · exact .refl s

/-- The tiles of a `GPUDISP`, set-up included, write in the output buffer only. -/
theorem gpuTiles_output (c : Bool) (s : State) : OutputOnly s (runTiles c (numBlocks s) (tilerSetUp s)) :=
  have hsetUp : OutputOnly s (tilerSetUp s) := .of_tilerFrame (tilerSetUp_frame s) rfl
  hsetUp.trans (runTiles_output c _ _)

/-- A `GPUDISP` that runs writes no byte outside the output buffer. -/
theorem gpuRun_others (c : Bool) {s : State} {a : Nat} (ha : OutsideOutput s a) :
    (gpuRun c s).mem.read a = s.mem.read a := by
  rw [gpuRun, tilerFinish_mem]
  exact (gpuTiles_output c s).others a ha

/-! The commands. -/

@[simp] theorem writeCfg_mem (q : CfgReg) (v : Word64) (s : State) : (writeCfg q v s).mem = s.mem := by
  rw [writeCfg_frame]

/-- An effect of a command leaves memory alone, or is that of a command which writes memory and writes it in the
output buffer only. -/
theorem Effect.memory {i : Instr} {s t : State} (h : Effect i s t) :
    t.mem = s.mem ∨ (i.writesMemory = true ∧ ∀ a, OutsideOutput s a → t.mem.read a = s.mem.read a) := by
  cases h with
  | refused hf => exact .inl rfl
  | faulted e => exact .inl rfl
  | responded v => exact .inl rfl
  | reset hi => exact .inl rfl
  | configured q hi => exact .inl (writeCfg_mem q _ s)
  | blockWritten hi v d => exact .inl rfl
  | counterLoaded hi => exact .inl rfl
  | keyLoaded hi => exact .inl rfl
  | seeded hi hk => exact .inl rfl
  | stepped hi r hr hp => exact .inl rfl
  | expanded hi hk => exact .inl rfl
  | inverted hi hs => exact .inl rfl
  | blockStored idx hi hn hr =>
    exact .inr ⟨by rw [hi]; rfl, fun a ha => by simp only [respondZero_mem, read_writeBlock_outAddr hn ha]⟩
  | partitioned c v hi hr =>
    have hout := parencRun_output c v ((buffersInRange_iff s).mp hr).2
    exact .inr ⟨by rw [hi]; rfl, hout.others⟩
  | dispatched c hi hr => exact .inr ⟨by rw [hi]; rfl, fun _ => gpuRun_others c⟩

/-- Settles O59: each effect of a command leaves memory alone or writes in the output buffer only. -/
theorem onlyTheOutputBufferIsWritten : Obligations.OnlyTheOutputBufferIsWritten := by
  intro i s t h
  rcases (exec_effect h).memory with hmem | ⟨hi, hothers⟩
  · exact ⟨fun _ => hmem, fun a _ => by rw [hmem]⟩
  · exact ⟨fun hno => absurd (hi.symm.trans hno) (by decide), hothers⟩

end Sys2Proof.Machine
end

section
/-! PROOFS. The decoder and the encoder are inverse to each other, and the words that the decoder rejects are those of
spec/30_encoding.md R83. Each format of R76 is settled once; the opcode map of R79 then picks the format. -/

namespace Sys2Proof

/-! The bits of an operand field. -/

/-- The bits above a zero-extended field are zero. -/
theorem high_zero_append {n : Nat} (m : Nat) (y : BitVec n) : (0#m ++ y).extractLsb' n m = 0#m := by
  rw [BitVec.extractLsb'_append_eq_of_le (le_refl n), Nat.sub_self, BitVec.extractLsb'_eq_self]

/-- The low bits of a zero-extended field are the field. -/
theorem low_zero_append {n : Nat} (m : Nat) (y : BitVec n) : (0#m ++ y).extractLsb' 0 n = y := by
  rw [BitVec.extractLsb'_append_eq_of_add_le (Nat.zero_add n).le, BitVec.extractLsb'_eq_self]

/-- A word whose high bits are zero is its low bits, zero-extended. -/
theorem zero_append_low {m n : Nat} {x : BitVec (m + n)} (h : x.extractLsb' n m = 0#m) :
    0#m ++ x.extractLsb' 0 n = x := by
  rw [← h, BitVec.extractLsb'_append_extractLsb'_eq_extractLsb' (Nat.zero_add n).symm, BitVec.extractLsb'_eq_self]

/-- The two low bits of a field, one by one. -/
theorem low_two_bits (x : BitVec 24) :
    BitVec.ofBool (x.getLsbD 1) ++ BitVec.ofBool (x.getLsbD 0) = x.extractLsb' 0 2 := by
  apply BitVec.eq_of_getLsbD_eq
  intro k hk
  rw [BitVec.getLsbD_append]
  interval_cases k <;> simp

/-! Each format puts the operands of a command where it finds them. -/

theorem decodeR_append {legal : Nat → Bool} (mk : Nat → Instr) {r : Nat} (hl : legal r = true) (hr : r ≤ 10) :
    decodeR legal mk (0#20 ++ BitVec.ofNat 4 r) = .ok (mk r) := by
  have hhigh : (0#20 ++ BitVec.ofNat 4 r : BitVec 24).extractLsb' 4 20 = 0#20 := high_zero_append 20 _
  have hlow : (0#20 ++ BitVec.ofNat 4 r : BitVec 24).extractLsb' 0 4 = BitVec.ofNat 4 r := low_zero_append 20 _
  have hmod : r % 2 ^ 4 = r := Nat.mod_eq_of_lt (by omega)
  simp only [decodeR, hhigh, hlow, BitVec.toNat_ofNat, hmod, hl, ne_eq, not_true, if_false, if_true]

theorem decodeG2_append (mk : Byte → Byte → Instr) (a b : Byte) : decodeG2 mk (0#8 ++ a ++ b) = .ok (mk a b) := by
  have hhigh : (0#8 ++ a ++ b : BitVec 24).extractLsb' 16 8 = 0#8 := by
    rw [BitVec.extractLsb'_append_eq_of_le (by decide)]
    exact high_zero_append 8 a
  have hmid : (0#8 ++ a ++ b : BitVec 24).extractLsb' 8 8 = a := by
    rw [BitVec.extractLsb'_append_eq_of_le (by decide)]
    exact low_zero_append 8 a
  have hlow : (0#8 ++ a ++ b : BitVec 24).extractLsb' 0 8 = b := by
    rw [BitVec.extractLsb'_append_eq_of_add_le (by decide), BitVec.extractLsb'_eq_self]
  simp only [decodeG2, hhigh, hmid, hlow, ne_eq, not_true, if_false]

theorem decodeG1_append (mk : Byte → Instr) (a : Byte) : decodeG1 mk (0#16 ++ a) = .ok (mk a) := by
  have hhigh : (0#16 ++ a : BitVec 24).extractLsb' 8 16 = 0#16 := high_zero_append 16 a
  have hlow : (0#16 ++ a : BitVec 24).extractLsb' 0 8 = a := low_zero_append 16 a
  simp only [decodeG1, hhigh, hlow, ne_eq, not_true, if_false]

theorem decodeM_append (mk : Bool → Instr) (c : Bool) : decodeM mk (0#23 ++ BitVec.ofBool c) = .ok (mk c) := by
  cases c <;> rfl

theorem decodeMV_append (mk : Bool → Bool → Instr) (c v : Bool) :
    decodeMV mk (0#22 ++ BitVec.ofBool v ++ BitVec.ofBool c) = .ok (mk c v) := by
  cases c <;> cases v <;> rfl

theorem decodeS_append {legal : CfgReg → Bool} (mk : CfgReg → Instr) {q : CfgReg} (hq : legal q = true) :
    decodeS legal mk (0#16 ++ q.sel) = .ok (mk q) := by
  have hhigh : (0#16 ++ q.sel : BitVec 24).extractLsb' 8 16 = 0#16 := high_zero_append 16 q.sel
  have hlow : (0#16 ++ q.sel : BitVec 24).extractLsb' 0 8 = q.sel := low_zero_append 16 q.sel
  simp only [decodeS, hhigh, hlow, cfgRegOf_sel, hq, ne_eq, not_true, if_false, if_true]

/-- A round-key index in a range of R85 is at most 10. -/
theorem le_ten_of_stepIndexOk {r : Nat} (h : stepIndexOk r = true) : r ≤ 10 := by simp_all [stepIndexOk]

theorem le_ten_of_roundIndexOk {r : Nat} (h : roundIndexOk r = true) : r ≤ 10 := by simp_all [roundIndexOk]

/-- The decoder finds a well-formed command by its opcode and its operand field. -/
theorem decodeOp_fields {i : Instr} (h : i.wellFormed = true) : decodeOp i.opcode i.operandField = .ok i := by
  cases i with
  | wrcfg sel => exact decodeS_append _ h
  | rdcfg sel => exact decodeS_append _ rfl
  | gfmul a b => exact decodeG2_append _ a b
  | gfmul2 a | gfmul3 a => exact decodeG1_append _ a
  | kstept r | kassist r => exact decodeR_append _ h (le_ten_of_stepIndexOk h)
  | rdrk r | rdik r | addrk r | venc r | venclast r | vdec r | vdeclast r =>
    exact decodeR_append _ h (le_ten_of_roundIndexOk h)
  | enct c | encv c | decv c | gpudisp c => exact decodeM_append _ c
  | parenc c v => exact decodeMV_append _ c v
  | ldblk idx | stblk idx => rfl
  | nop | rdstat | sreset | ldkey | kseed | kexpt | kexpv | kinv | lds | rds | ldctr | subb | shrow | mixcol | isubb
  | ishrow | imixcol | xctr => rfl

/-- Settles O1: the decoder takes the opcode and the operand field apart, and each format finds its operands. -/
theorem decodeEncodeRoundTrip : Obligations.DecodeEncodeRoundTrip := by
  intro i hi
  rw [encode, decode_append, decodeOp_fields hi]

/-- Settles O3: each word is the one the encoder gives for its command. -/
theorem specWordsDecode : Obligations.SpecWordsDecode :=
  ⟨decodeEncodeRoundTrip (.gfmul 0x57#8 0x83#8) rfl, decodeEncodeRoundTrip (.gfmul2 0x57#8) rfl,
    decodeEncodeRoundTrip (.kstept 3) rfl, decodeEncodeRoundTrip (.encv true) rfl,
    decodeEncodeRoundTrip (.parenc true true) rfl, decodeEncodeRoundTrip (.ldblk 5#24) rfl,
    decodeEncodeRoundTrip (.wrcfg .nBlocks) rfl, decodeEncodeRoundTrip (.rdcfg .clb) rfl,
    decodeEncodeRoundTrip (.venclast 10) rfl, decodeEncodeRoundTrip .sreset rfl⟩

/-! A word that decodes is a well-formed command's word. -/

/-- `op` and `x` are the fields of the word of the well-formed command `i` (spec/30_encoding.md R76, R79). -/
structure Encodes (op : Byte) (x : BitVec 24) (i : Instr) : Prop where
  wellFormed : i.wellFormed = true
  opcode : i.opcode = op
  field : i.operandField = x

namespace Encodes

variable {op : Byte} {x : BitVec 24} {i : Instr}

theorem of_decodeZ {j : Instr} (h : decodeZ j x = .ok i) (hj : Encodes op 0#24 j) : Encodes op x i := by
  obtain ⟨rfl, rfl⟩ := decodeZ_ok_iff.mp h
  exact hj

theorem of_decodeR {legal : Nat → Bool} {mk : Nat → Instr} (h : decodeR legal mk x = .ok i)
    (hmk : ∀ r, legal r = true → Encodes op (0#20 ++ BitVec.ofNat 4 r) (mk r)) : Encodes op x i := by
  unfold decodeR at h
  split_ifs at h with hz hl
  have hx : 0#20 ++ x.extractLsb' 0 4 = x := zero_append_low (m := 20) (n := 4) (not_not.mp hz)
  have he := hmk _ hl
  rwa [BitVec.ofNat_toNat, BitVec.setWidth_eq, hx, Except.ok.inj h] at he

theorem of_decodeG2 {mk : Byte → Byte → Instr} (h : decodeG2 mk x = .ok i)
    (hmk : ∀ a b, Encodes op (0#8 ++ a ++ b) (mk a b)) : Encodes op x i := by
  unfold decodeG2 at h
  split_ifs at h with hz
  have hx : 0#8 ++ x.extractLsb' 8 8 ++ x.extractLsb' 0 8 = x := by
    rw [← not_not.mp hz, BitVec.extractLsb'_append_extractLsb'_eq_extractLsb' (start₁ := 8) (len₁ := 8) rfl,
      BitVec.extractLsb'_append_extractLsb'_eq_extractLsb' (start₁ := 0) (len₁ := 8) rfl,
      BitVec.extractLsb'_eq_self]
  have he := hmk (x.extractLsb' 8 8) (x.extractLsb' 0 8)
  rwa [hx, Except.ok.inj h] at he

theorem of_decodeG1 {mk : Byte → Instr} (h : decodeG1 mk x = .ok i) (hmk : ∀ a, Encodes op (0#16 ++ a) (mk a)) :
    Encodes op x i := by
  unfold decodeG1 at h
  split_ifs at h with hz
  have hx : 0#16 ++ x.extractLsb' 0 8 = x := zero_append_low (m := 16) (n := 8) (not_not.mp hz)
  have he := hmk (x.extractLsb' 0 8)
  rwa [hx, Except.ok.inj h] at he

/-- A field with zeros from bit 2 on is its two low bits. -/
theorem zero_append_two_bits (hz : x.extractLsb' 2 22 = 0#22) :
    0#22 ++ BitVec.ofBool (x.getLsbD 1) ++ BitVec.ofBool (x.getLsbD 0) = x := by
  have hx : 0#22 ++ x.extractLsb' 0 2 = x := zero_append_low (m := 22) (n := 2) hz
  rw [← low_two_bits] at hx
  exact BitVec.append_assoc.trans hx

theorem of_decodeM {mk : Bool → Instr} (h : decodeM mk x = .ok i)
    (hmk : ∀ c, Encodes op (0#23 ++ BitVec.ofBool c) (mk c)) : Encodes op x i := by
  unfold decodeM at h
  split_ifs at h with hz hv
  have hx := zero_append_two_bits (not_not.mp hz)
  rw [Bool.eq_false_of_not_eq_true hv] at hx
  have he := hmk (x.getLsbD 0)
  rw [Except.ok.inj h] at he
  exact hx ▸ he

theorem of_decodeMV {mk : Bool → Bool → Instr} (h : decodeMV mk x = .ok i)
    (hmk : ∀ c v, Encodes op (0#22 ++ BitVec.ofBool v ++ BitVec.ofBool c) (mk c v)) : Encodes op x i := by
  unfold decodeMV at h
  split_ifs at h with hz
  have he := hmk (x.getLsbD 0) (x.getLsbD 1)
  rwa [zero_append_two_bits (not_not.mp hz), Except.ok.inj h] at he

theorem of_decodeS {legal : CfgReg → Bool} {mk : CfgReg → Instr} (h : decodeS legal mk x = .ok i)
    (hmk : ∀ q, legal q = true → Encodes op (0#16 ++ q.sel) (mk q)) : Encodes op x i := by
  unfold decodeS at h
  split_ifs at h with hz
  split at h
  · next q hq =>
    split_ifs at h with hl
    have hx : 0#16 ++ x.extractLsb' 0 8 = x := zero_append_low (m := 16) (n := 8) (not_not.mp hz)
    have he := hmk q hl
    rwa [sel_of_cfgRegOf hq, hx, Except.ok.inj h] at he
  · contradiction

end Encodes

/-- A command that the opcode map gives has this opcode and this operand field, and is well formed. -/
theorem encodes_of_decodeOp {op : Byte} {x : BitVec 24} {i : Instr} (h : decodeOp op x = .ok i) : Encodes op x i := by
  unfold decodeOp at h
  split at h
  -- the arms of the opcode map, numbered in its order, format by format
  case h_1 | h_2 | h_5 | h_9 | h_10 | h_12 | h_14 | h_15 | h_18 | h_19 | h_20 | h_23 | h_24 | h_25 | h_27 | h_28 |
      h_29 | h_30 =>
    exact .of_decodeZ h ⟨rfl, rfl, rfl⟩
  case h_3 => exact .of_decodeS h fun _ hq => ⟨hq, rfl, rfl⟩
  case h_4 => exact .of_decodeS h fun _ _ => ⟨rfl, rfl, rfl⟩
  case h_6 => exact .of_decodeG2 h fun _ _ => ⟨rfl, rfl, rfl⟩
  case h_7 | h_8 => exact .of_decodeG1 h fun _ => ⟨rfl, rfl, rfl⟩
  case h_11 | h_13 | h_16 | h_17 | h_26 | h_31 | h_32 | h_33 | h_34 => exact .of_decodeR h fun _ hr => ⟨hr, rfl, rfl⟩
  case h_21 | h_22 => exact Except.ok.inj h ▸ ⟨rfl, rfl, rfl⟩
  case h_35 | h_36 | h_37 | h_39 => exact .of_decodeM h fun _ => ⟨rfl, rfl, rfl⟩
  case h_38 => exact .of_decodeMV h fun _ _ => ⟨rfl, rfl, rfl⟩
  case h_40 => contradiction

/-- The opcode map and the fields of a well-formed command's word say the same. -/
theorem decodeOp_ok_iff {op : Byte} {x : BitVec 24} {i : Instr} : decodeOp op x = .ok i ↔ Encodes op x i := by
  constructor
  · exact encodes_of_decodeOp
  · rintro ⟨hi, rfl, rfl⟩
    exact decodeOp_fields hi

/-- Settles O2: the word is made of the fields of the command it decodes to. -/
theorem decodedWordReencodes : Obligations.DecodedWordReencodes := by
  intro w i h
  obtain ⟨hi, hop, hx⟩ := encodes_of_decodeOp h
  exact ⟨hi, by rw [encode, hop, hx, append_fields]⟩

end Sys2Proof
end

section
/-! PROOFS. The words that the decoder rejects: those of spec/30_encoding.md R83, and the unassigned opcodes of R84. -/

namespace Sys2Proof

open Machine

/-- The decoder rejects: it answers an error. -/
def Rejects (d : Except Illegal Instr) : Prop := ∃ e, d = .error e

@[simp] theorem rejects_error (e : Illegal) : Rejects (.error e) := ⟨e, rfl⟩

@[simp] theorem not_rejects_ok (i : Instr) : ¬ Rejects (.ok i) := by rintro ⟨e, h⟩; cases h

theorem not_rejects_iff {d : Except Illegal Instr} : ¬ Rejects d ↔ ∃ i, d = .ok i := by
  cases d <;> simp

/-- A test that rejects before the rest of a format. -/
theorem rejects_test {p : Prop} [Decidable p] {e : Illegal} {d : Except Illegal Instr} :
    Rejects (if p then .error e else d) ↔ p ∨ Rejects d := by
  split_ifs with h <;> simp [h]

/-- A range that ends a format. -/
theorem rejects_range {p : Prop} [Decidable p] {e : Illegal} {i : Instr} :
    Rejects (if p then .ok i else .error e) ↔ ¬ p := by
  split_ifs with h <;> simp [h]

/-! The operand fields that a format rejects, as numbers. -/

/-- The bits of a word above its low `n` are not zero exactly when its number does not fit in these. -/
theorem high_ne_zero_iff {m n : Nat} {x : BitVec (m + n)} : x.extractLsb' n m ≠ 0#m ↔ 2 ^ n ≤ x.toNat := by
  have hlt : x.toNat / 2 ^ n < 2 ^ m := Nat.div_lt_of_lt_mul (by rw [← Nat.pow_add, Nat.add_comm n]; exact x.isLt)
  rw [ne_eq, ← BitVec.toNat_inj, BitVec.extractLsb'_toNat, Nat.shiftRight_eq_div_pow, Nat.mod_eq_of_lt hlt,
    BitVec.toNat_ofNat, Nat.zero_mod, Nat.div_eq_zero_iff]
  simp

section formats

variable {x : BitVec 24}

theorem rejects_decodeZ (i : Instr) : Rejects (decodeZ i x) ↔ x.toNat ≠ 0 := by
  rw [decodeZ, rejects_range, ← BitVec.toNat_inj, BitVec.toNat_ofNat, Nat.zero_mod]

theorem rejects_decodeR (legal : Nat → Bool) (mk : Nat → Instr) :
    Rejects (decodeR legal mk x) ↔ 16 ≤ x.toNat ∨ legal (x.toNat % 16) = false := by
  have hz : x.extractLsb' 4 20 ≠ 0#20 ↔ 16 ≤ x.toNat := high_ne_zero_iff (m := 20) (n := 4)
  have hr : (x.extractLsb' 0 4).toNat = x.toNat % 16 := BitVec.extractLsb'_toNat 0 4 x
  rw [decodeR, rejects_test, rejects_range, hz, hr, Bool.not_eq_true]

theorem rejects_decodeG2 (mk : Byte → Byte → Instr) : Rejects (decodeG2 mk x) ↔ 0x10000 ≤ x.toNat := by
  have hz : x.extractLsb' 16 8 ≠ 0#8 ↔ 0x10000 ≤ x.toNat := high_ne_zero_iff (m := 8) (n := 16)
  simp [decodeG2, rejects_test, hz]

theorem rejects_decodeG1 (mk : Byte → Instr) : Rejects (decodeG1 mk x) ↔ 0x100 ≤ x.toNat := by
  have hz : x.extractLsb' 8 16 ≠ 0#16 ↔ 0x100 ≤ x.toNat := high_ne_zero_iff (m := 16) (n := 8)
  rw [decodeG1, rejects_test, hz]
  simp 

theorem rejects_decodeM (mk : Bool → Instr) : Rejects (decodeM mk x) ↔ 4 ≤ x.toNat ∨ x.toNat / 2 % 2 = 1 := by
  have hz : x.extractLsb' 2 22 ≠ 0#22 ↔ 4 ≤ x.toNat := high_ne_zero_iff (m := 22) (n := 2)
  have hv : x.getLsbD 1 = true ↔ x.toNat / 2 % 2 = 1 := by
    rw [BitVec.getLsbD, Nat.testBit_eq_decide_div_mod_eq, decide_eq_true_iff]
  rw [decodeM, rejects_test, rejects_test, hz, hv]
  simp

theorem rejects_decodeMV (mk : Bool → Bool → Instr) : Rejects (decodeMV mk x) ↔ 4 ≤ x.toNat := by
  have hz : x.extractLsb' 2 22 ≠ 0#22 ↔ 4 ≤ x.toNat := high_ne_zero_iff (m := 22) (n := 2)
  rw [decodeMV, rejects_test, hz]
  simp

theorem rejects_decodeS (legal : CfgReg → Bool) (mk : CfgReg → Instr) :
    Rejects (decodeS legal mk x) ↔
      0x100 ≤ x.toNat ∨ ¬ ∃ q : CfgReg, q.sel.toNat = x.toNat % 256 ∧ legal q = true := by
  have hz : x.extractLsb' 8 16 ≠ 0#16 ↔ 0x100 ≤ x.toNat := high_ne_zero_iff (m := 16) (n := 8)
  have hs : (x.extractLsb' 0 8).toNat = x.toNat % 256 := BitVec.extractLsb'_toNat 0 8 x
  have hq (q : CfgReg) : q.sel.toNat = x.toNat % 256 ↔ cfgRegOf (x.extractLsb' 0 8) = some q := by
    rw [← hs, BitVec.toNat_inj]
    exact ⟨fun h => h ▸ cfgRegOf_sel q, sel_of_cfgRegOf⟩
  rw [decodeS, rejects_test, hz]
  simp only [hq]
  cases cfgRegOf (x.extractLsb' 0 8) <;> simp [rejects_range]

/-- The numbers of the registers (R86). -/
theorem exists_sel_iff {n : Nat} : (∃ q : CfgReg, q.sel.toNat = n) ↔ n ∈ selectors := by
  constructor
  · rintro ⟨q, rfl⟩
    cases q <;> decide
  · intro h
    have hall : selectors = [CfgReg.nBlocks, .threads, .inBase, .outBase, .clb, .lanes, .devCeil, .devInfo, .gpuOffset,
      .gpuTile, .gpuTiles].map fun q => q.sel.toNat := rfl
    rw [hall] at h
    obtain ⟨q, -, hq⟩ := List.mem_map.mp h
    exact ⟨q, hq⟩

/-- The writable registers are those with the numbers 0 to 3 (R86). -/
theorem writable_iff (q : CfgReg) : q.writable = true ↔ q.sel.toNat < 4 := by cases q <;> decide

theorem exists_writable_iff {n : Nat} : (∃ q : CfgReg, q.sel.toNat = n ∧ q.writable = true) ↔ n < 4 := by
  constructor
  · rintro ⟨q, rfl, hq⟩
    exact (writable_iff q).mp hq
  · intro h
    have hn : n ∈ selectors := by interval_cases n <;> decide
    obtain ⟨q, rfl⟩ := exists_sel_iff.mpr hn
    exact ⟨q, rfl, (writable_iff q).mpr h⟩

theorem stepIndexOk_false (r : Nat) : stepIndexOk r = false ↔ 10 < r ∨ r = 0 := by
  simp only [stepIndexOk, Bool.and_eq_false_iff, decide_eq_false_iff_not]
  omega

theorem roundIndexOk_false (r : Nat) : roundIndexOk r = false ↔ 10 < r := by simp [roundIndexOk]

/-! No format gives the name of an unassigned opcode. -/

@[simp] theorem decodeZ_ne_unassigned (i : Instr) : decodeZ i x ≠ .error .unassignedOpcode := by
  unfold decodeZ
  split_ifs <;> simp

@[simp] theorem decodeR_ne_unassigned (legal : Nat → Bool) (mk : Nat → Instr) :
    decodeR legal mk x ≠ .error .unassignedOpcode := by
  unfold decodeR
  split_ifs <;> simp

@[simp] theorem decodeG2_ne_unassigned (mk : Byte → Byte → Instr) : decodeG2 mk x ≠ .error .unassignedOpcode := by
  unfold decodeG2
  split_ifs <;> simp

@[simp] theorem decodeG1_ne_unassigned (mk : Byte → Instr) : decodeG1 mk x ≠ .error .unassignedOpcode := by
  unfold decodeG1
  split_ifs <;> simp

@[simp] theorem decodeM_ne_unassigned (mk : Bool → Instr) : decodeM mk x ≠ .error .unassignedOpcode := by
  unfold decodeM
  split_ifs <;> simp

@[simp] theorem decodeMV_ne_unassigned (mk : Bool → Bool → Instr) : decodeMV mk x ≠ .error .unassignedOpcode := by
  unfold decodeMV
  split_ifs <;> simp

@[simp] theorem decodeS_ne_unassigned (legal : CfgReg → Bool) (mk : CfgReg → Instr) :
    decodeS legal mk x ≠ .error .unassignedOpcode := by
  unfold decodeS
  split_ifs
  · simp
  · cases cfgRegOf (x.extractLsb' 0 8) with
    | none => simp
    | some q => cases hq : legal q <;> simp [hq]

end formats

/-- The opcode map rejects the fields of an illegal word (spec/30_encoding.md R83), by the name of an unassigned opcode
exactly when the opcode is one (R84). -/
theorem decodeOp_rejections (op : Byte) (x : BitVec 24) :
    (Rejects (decodeOp op x) ↔ illegalFields op.toNat x.toNat) ∧
      (decodeOp op x = .error .unassignedOpcode ↔ unassignedOpcode op.toNat) := by
  unfold decodeOp
  split
  case h_40 =>
    have hun : unassignedOpcode op.toNat := by
      simp only [imp_false, ← BitVec.toNat_inj, BitVec.reduceToNat] at *
      have hop := op.isLt
      unfold unassignedOpcode
      omega
    simp [illegalFields, hun]
  all_goals
    simp [illegalFields, unassignedOpcode, opcodesZ, opcodesR, rejects_decodeZ, rejects_decodeG2, rejects_decodeG1,
      rejects_decodeM, rejects_decodeMV, rejects_decodeS, rejects_decodeR, stepIndexOk_false, roundIndexOk_false,
      exists_sel_iff, exists_writable_iff, or_assoc]

theorem rejects_decodeOp_iff (op : Byte) (x : BitVec 24) :
    Rejects (decodeOp op x) ↔ illegalFields op.toNat x.toNat := (decodeOp_rejections op x).1

/-! The same of words. -/

theorem toNat_opcode (w : CmdWord) : (w.extractLsb' 24 8).toNat = w.toNat / 2 ^ 24 := by
  have := w.isLt
  rw [BitVec.extractLsb'_toNat, Nat.shiftRight_eq_div_pow]
  omega

theorem toNat_operand (w : CmdWord) : (w.extractLsb' 0 24).toNat = w.toNat % 2 ^ 24 := BitVec.extractLsb'_toNat 0 24 w

theorem rejects_decode_iff (w : CmdWord) : Rejects (decode w) ↔ illegalWord w := by
  rw [decode, rejects_decodeOp_iff, toNat_opcode, toNat_operand, illegalWord]

theorem decode_unassigned_iff (w : CmdWord) :
    decode w = .error .unassignedOpcode ↔ unassignedOpcode (w.toNat / 2 ^ 24) := by
  rw [decode, (decodeOp_rejections _ _).2, toNat_opcode]

/-- On a live core an illegal word at the port raises `E_ILLEGAL_CMD` (spec/30_encoding.md R83). -/
theorem step_illegalWord {s : State} {cmd : CmdWord} {w : Block} {rest : List HostMove} (hp : atPort cmd w rest s)
    (hl : s.live) (hi : illegalWord cmd) : step s = .next (faulted 0x01#8 (present w rest s)) := by
  obtain ⟨e, he⟩ := (rejects_decode_iff cmd).mpr hi
  rw [step_command hp, issue_error he, illegalCommand, command_live (s := present w rest s) hl]
  rfl

/-- Settles O4: the last arm of the opcode map is the one of the unassigned opcodes, and their words are illegal. -/
theorem unassignedOpcodesAreIllegal : Obligations.UnassignedOpcodesAreIllegal :=
  ⟨fun w => (decode_unassigned_iff w).symm, fun _ _ _ _ hp hl hu => step_illegalWord hp hl (.inl hu)⟩

/-- A block index beyond the buffer raises `E_RANGE` (spec/47_host_commands.md R223, R224). -/
theorem blockAccess_beyond {s : State} {n : Nat} (h : numBlocks s ≤ n) (addr : State → Nat → Nat)
    (body : State → State) : blockAccess addr n body s = raiseFault .range s := by
  rcases blockAccess_cases addr n body s with ⟨⟨hn, -, -⟩, -⟩ | ⟨-, hf⟩
  · omega
  · exact hf

/-- Settles O5: what the decoder rejects is what R83 lists, and the block index is no part of it. -/
theorem illegalWordRaisesIllegalCmd : Obligations.IllegalWordRaisesIllegalCmd := by
  refine ⟨fun s cmd w rest => step_illegalWord, fun cmd hc => ?_, fun s idx hl hn => ⟨?_, fun hv => ?_⟩⟩
  · rwa [← rejects_decode_iff, not_rejects_iff] at hc
  · rw [faultsWith, exec, execLdblk, command_live hl, blockAccess_beyond hn]
    rfl
  · rw [faultsWith, exec, execStblk, command_live hl, require_true hv, blockAccess_beyond hn]
    rfl

theorem decode_append_ok_iff (op : Byte) (x : BitVec 24) :
    (∃ i, decode (op ++ x) = .ok i) ↔ ¬ illegalFields op.toNat x.toNat := by
  rw [decode_append, ← not_rejects_iff, rejects_decodeOp_iff]

/-- A zero-extended field has the number of the field. -/
theorem toNat_zero_append {m n : Nat} (y : BitVec n) : (0#m ++ y).toNat = y.toNat := by
  rw [BitVec.toNat_append, BitVec.toNat_ofNat, Nat.zero_mod, Nat.zero_shiftLeft, Nat.zero_or]

/-- Of the clauses of R83, those on `r` are left for a word of format R with zeros above `r`. -/
theorem illegalFields_formatR {op r : Nat} (hop : op ∈ opcodesR) (hr : r < 16) :
    illegalFields op r ↔ 10 < r ∨ ((op = 0x22 ∨ op = 0x24) ∧ r = 0) := by
  have hmod : r % 16 = r := Nat.mod_eq_of_lt hr
  have hlt : ¬ 16 ≤ r := Nat.not_le.mpr hr
  simp only [opcodesR, List.mem_cons, List.not_mem_nil, or_false] at hop
  rcases hop with rfl | rfl | rfl | rfl | rfl | rfl | rfl | rfl | rfl <;>
    simp [illegalFields, unassignedOpcode, opcodesZ, opcodesR, hmod, hlt]

/-- Settles O6: the clauses of R83 on `r` are the ranges of R85. -/
theorem roundIndexRanges : Obligations.RoundIndexRanges := by
  intro op hop r
  have hx : (0#20 ++ r : BitVec 24).toNat = r.toNat := toNat_zero_append r
  have h22 : op = 0x22#8 ↔ op.toNat = 0x22 := BitVec.toNat_inj.symm
  have h24 : op = 0x24#8 ↔ op.toNat = 0x24 := BitVec.toNat_inj.symm
  rw [decode_append_ok_iff, hx, illegalFields_formatR hop r.isLt, h22, h24]
  omega

/-- A word of format S decodes to the command of a register when it is the register's number, and the command is well
formed. -/
theorem decode_formatS_iff {mk : CfgReg → Instr} {op sel : Byte} {q : CfgReg} (hop : (mk q).opcode = op)
    (hx : (mk q).operandField = 0#16 ++ q.sel) :
    decode (op ++ (0#16 ++ sel)) = .ok (mk q) ↔ q.sel.toNat = sel.toNat ∧ (mk q).wellFormed = true := by
  rw [decode_append, decodeOp_ok_iff]
  constructor
  · rintro ⟨hwf, -, hf⟩
    have hs := congrArg BitVec.toNat (hx.symm.trans hf)
    rw [toNat_zero_append, toNat_zero_append] at hs
    exact ⟨hs, hwf⟩
  · rintro ⟨hs, hwf⟩
    exact ⟨hwf, hop, BitVec.eq_of_toNat_eq hs ▸ hx⟩

/-- Settles O7: a word decodes to `RDCFG q` or `WRCFG q` when it is this command's word. -/
theorem legalSelectors : Obligations.LegalSelectors := by
  intro sel
  constructor
  · rw [← exists_sel_iff]
    exact exists_congr fun q => (decode_formatS_iff (mk := .rdcfg) rfl rfl).trans (and_iff_left rfl)
  · rw [← Nat.lt_succ_iff, ← exists_writable_iff]
    exact exists_congr fun q => decode_formatS_iff (mk := .wrcfg) rfl rfl

end Sys2Proof
end

section
/-! PROOFS. The response of every command tells its outcome (spec/30_encoding.md R81, R82). -/

namespace Sys2Proof.Machine

/-- The response in `t` tells what became of the command `i` on a live core: it ran, or it raised a fault. -/
def TellsOutcome (i : Instr) (t : State) : Prop :=
  (t.rsp = .ok ∧ t.fatal = false ∧ (i.responds = false → t.rdata = 0#128)) ∨
    (t.rsp = .fault ∧ t.fatal = true ∧ t.rdata = t.errCode.setWidth 128)

namespace TellsOutcome

variable {i : Instr} {s t : State} {body : State → State}

theorem of_fault (e : ErrCode) (s : State) : TellsOutcome i (raiseFault e s) := .inr ⟨rfl, rfl, rfl⟩

theorem of_respond (hi : i.responds = true) (hs : s.fatal = false) (v : Block) : TellsOutcome i (respond v s) :=
  .inl ⟨rfl, hs, fun hno => absurd (hi.symm.trans hno) (by decide)⟩

theorem of_respondZero (hs : s.fatal = false) : TellsOutcome i (respondZero s) := .inl ⟨rfl, hs, fun _ => rfl⟩

theorem of_legal {ok : Bool} (hb : TellsOutcome i (body s)) : TellsOutcome i (legal ok body s) := by
  rcases legal_cases ok body s with ⟨-, h⟩ | ⟨-, h⟩ <;> rw [h]
  · exact hb
  · exact of_fault _ s

theorem of_require {valid : State → Bool} (hb : TellsOutcome i (body s)) : TellsOutcome i (require valid body s) := by
  rcases require_cases valid body s with ⟨-, h⟩ | ⟨-, h⟩ <;> rw [h]
  · exact hb
  · exact of_fault _ s

theorem of_blockAccess {addr : State → Nat → Nat} {n : Nat} (hb : TellsOutcome i (body s)) :
    TellsOutcome i (blockAccess addr n body s) := by
  rcases blockAccess_cases addr n body s with ⟨-, h⟩ | ⟨-, h⟩ <;> rw [h]
  · exact hb
  · exact of_fault _ s

theorem of_checkAll {tests : State → List (Bool × ErrCode)} (hb : TellsOutcome i (body s)) :
    TellsOutcome i (checkAll tests body s) := by
  rcases checkAll_cases tests body s with ⟨-, h⟩ | ⟨e, -, h⟩ <;> rw [h]
  · exact hb
  · exact of_fault e s

theorem of_command (hl : s.live) (h : command body s = .next t) (hb : TellsOutcome i (body s)) : TellsOutcome i t := by
  rw [command_live hl] at h
  exact Host.Outcome.next.inj h ▸ hb

/-! The bodies that several commands share. -/

theorem of_stepSchedule (hl : s.live) (next : Block → Nat → Block) (r : Nat) :
    TellsOutcome i (stepSchedule next r s) := of_legal (of_require (of_respondZero hl))

theorem of_expandSchedule (hl : s.live) (next : Block → Nat → Block) : TellsOutcome i (expandSchedule next s) :=
  of_require (of_respondZero hl)

theorem of_transformS (hl : s.live) (f : State → Block → Block) : TellsOutcome i (transformS f s) :=
  of_require (of_respondZero hl)

theorem of_forwardRound (hl : s.live) (f : Block → Block → Block) (r : Nat) : TellsOutcome i (forwardRound f r s) :=
  of_legal (of_require (of_require (of_respondZero hl)))

theorem of_inverseRound (hl : s.live) (f : Block → Block → Block) (r : Nat) : TellsOutcome i (inverseRound f r s) :=
  of_legal (of_require (of_require (of_respondZero hl)))

theorem of_wholeBlock (hi : i.responds = true) (hl : s.live) (ok : State → Bool)
    (f : State → Block → Option Block → Block) (c : Bool) : TellsOutcome i (wholeBlock ok f c s) :=
  of_require (of_require (of_require (of_respond hi hl _)))

end TellsOutcome

theorem writeCfg_fatal (q : CfgReg) (v : Word64) (s : State) : (writeCfg q v s).fatal = s.fatal := by
  rw [writeCfg_frame]

theorem parencRun_fatal (c v : Bool) (s : State) : (parencRun c v s).fatal = s.fatal := by
  rw [parencRun_frame c v s]

theorem gpuRun_fatal (c : Bool) (s : State) : (gpuRun c s).fatal = s.fatal := by rw [gpuRun_frame c s]

open TellsOutcome in
/-- On a live core the response of every command tells its outcome. -/
theorem exec_tellsOutcome {i : Instr} {s t : State} (hl : s.live) (h : exec i s = .next t) : TellsOutcome i t := by
  cases i with
  | nop => exact of_command hl h (of_respondZero hl)
  | rdstat => exact Host.Outcome.next.inj h ▸ of_respond rfl hl _
  | wrcfg sel => exact of_command hl h (of_legal (of_respondZero ((writeCfg_fatal _ _ s).trans hl)))
  | rdcfg sel | gfmul a b | gfmul2 a | gfmul3 a => exact of_command hl h (of_respond rfl hl _)
  | sreset => exact Host.Outcome.next.inj h ▸ of_respondZero rfl
  | ldkey =>
    rw [exec, execLdkey] at h
    exact of_command hl h (of_respondZero hl)
  | kseed | kinv => exact of_command hl h (of_require (of_respondZero hl))
  | kstept r | kassist r => exact of_command hl h (of_stepSchedule hl _ r)
  | kexpt | kexpv => exact of_command hl h (of_expandSchedule hl _)
  | rdrk r | rdik r => exact of_command hl h (of_legal (of_require (of_respond rfl hl _)))
  | lds =>
    rw [exec, execLds] at h
    exact of_command hl h (of_respondZero hl)
  | rds => exact of_command hl h (of_require (of_respond rfl hl _))
  | ldctr =>
    rw [exec, execLdctr] at h
    exact of_command hl h (of_respondZero hl)
  | ldblk idx => exact of_command hl h (of_blockAccess (of_respondZero hl))
  | stblk idx => exact of_command hl h (of_require (of_blockAccess (of_respondZero hl)))
  | subb | shrow | mixcol | isubb | ishrow | imixcol => exact of_command hl h (of_transformS hl _)
  | addrk r | venc r | venclast r => exact of_command hl h (of_forwardRound hl _ r)
  | xctr => exact of_command hl h (of_require (of_require (of_respondZero hl)))
  | vdec r | vdeclast r => exact of_command hl h (of_inverseRound hl _ r)
  | enct c | encv c | decv c => exact of_command hl h (of_wholeBlock rfl hl _ _ c)
  | parenc c v => exact of_command hl h (of_checkAll (of_respondZero ((parencRun_fatal c v s).trans hl)))
  | gpudisp c => exact of_command hl h (of_checkAll (of_respondZero ((gpuRun_fatal c s).trans hl)))

/-- Every command but `RDSTAT` and `SRESET` stands in the frame that the fatal state refuses (spec/60_exceptions.md
R241). -/
theorem exec_eq_command {i : Instr} (hr : i ≠ .rdstat) (hs : i ≠ .sreset) :
    ∃ body, ∀ s, exec i s = command body s := by
  cases i with
  | rdstat => contradiction
  | sreset => contradiction
  | _ => exact ⟨_, fun _ => rfl⟩

/-- In the fatal state every command but `RDSTAT` and `SRESET` is refused (R241). -/
theorem exec_fatal {i : Instr} {s : State} (hf : s.fatal = true) (hr : i ≠ .rdstat) (hs : i ≠ .sreset) :
    exec i s = .next (refuse s) := by
  obtain ⟨body, hbody⟩ := exec_eq_command hr hs
  rw [hbody, command_fatal hf]

/-- Every command responds: it has a next state (spec/30_encoding.md R82). -/
theorem exec_next (i : Instr) (s : State) : ∃ t, exec i s = .next t := by
  cases i <;> exact ⟨_, rfl⟩

/-- Settles O14: on a live core by the frame of the command, and in the fatal state by its refusal. -/
theorem responseTellsTheOutcome : Obligations.ResponseTellsTheOutcome := by
  intro i s
  obtain ⟨t, h⟩ := exec_next i s
  refine ⟨t, h, fun hl => exec_tellsOutcome hl h, fun hf hr hs => ?_⟩
  exact Host.Outcome.next.inj (h.symm.trans (exec_fatal hf hr hs))

end Sys2Proof.Machine
end

section
/-! PROOFS. Which commands read `WDATA` (spec/30_encoding.md R78): what the others do commutes with another operand at
the port, operation by operation. -/

namespace Sys2Proof.Machine

/-- The state with operand `w` at the port. -/
def withWdata (w : Block) (s : State) : State := { s with wdata := w }

/-- What `f` does is the same whatever operand is at the port. -/
def IgnoresWdata (f : State → State) : Prop := ∀ w s, f (withWdata w s) = withWdata w (f s)

namespace IgnoresWdata

variable {f g : State → State}

theorem comp (hf : IgnoresWdata f) (hg : IgnoresWdata g) : IgnoresWdata fun s => f (g s) := fun w s =>
  (congrArg f (hg w s)).trans (hf w (g s))

/-- A write of memory ignores the operand when the memory written does. -/
theorem of_withMem {m : State → Memory} (hm : ∀ w s, m (withWdata w s) = m s) :
    IgnoresWdata fun s => { s with mem := m s } := fun w s =>
  congrArg (fun x => withWdata w { s with mem := x }) (hm w s)

theorem of_respondZero (hf : IgnoresWdata f) : IgnoresWdata fun s => respondZero (f s) := fun w s =>
  congrArg respondZero (hf w s)

/-! The frame of a command. -/

theorem of_fault (e : ErrCode) : IgnoresWdata (raiseFault e) := fun _ _ => rfl

theorem of_legal {ok : Bool} (hf : IgnoresWdata f) : IgnoresWdata (legal ok f) := by
  cases ok
  · exact of_fault _
  · exact hf

theorem of_check {ok : State → Bool} {e : ErrCode} (ho : ∀ w s, ok (withWdata w s) = ok s) (hf : IgnoresWdata f) :
    IgnoresWdata (check ok e f) := fun w s => by
  cases h : ok s
  · rw [check_false ((ho w s).trans h), check_false h, of_fault]
  · rw [check_true ((ho w s).trans h), check_true h, hf]

theorem of_require {valid : State → Bool} (hv : ∀ w s, valid (withWdata w s) = valid s) (hf : IgnoresWdata f) :
    IgnoresWdata (require valid f) := of_check hv hf

theorem of_blockAccess {addr : State → Nat → Nat} {n : Nat} (ha : ∀ w s, addr (withWdata w s) = addr s)
    (hf : IgnoresWdata f) : IgnoresWdata (blockAccess addr n f) :=
  of_check (fun _ _ => rfl) (of_check (fun w s => by rw [ha]) (of_check (fun _ _ => rfl) hf))

theorem of_checkAll {tests : State → List (Bool × ErrCode)} (ht : ∀ w s, tests (withWdata w s) = tests s)
    (hf : IgnoresWdata f) : IgnoresWdata (checkAll tests f) := fun w s => by
  unfold checkAll
  rw [ht]
  split
  · exact of_fault _ w s
  · exact hf w s

/-- A command whose body does the same with operand `w` answers the same with it. -/
theorem command_withWdata {s t : State} {w : Block} (h : command f s = .next t)
    (hf : f (withWdata w s) = withWdata w (f s)) : command f (withWdata w s) = .next (withWdata w t) := by
  have hfatal : (withWdata w s).fatal = s.fatal := rfl
  rcases command_next h with ⟨hs, rfl⟩ | ⟨hs, rfl⟩
  · rw [command_fatal (hfatal.trans hs)]
    rfl
  · rw [command_live (hfatal.trans hs), hf]

theorem next_of_command {s t : State} (w : Block) (h : command f s = .next t) (hf : IgnoresWdata f) :
    command f (withWdata w s) = .next (withWdata w t) := command_withWdata h (hf w s)

/-! The bodies that several commands share. -/

theorem of_stepSchedule (next : Block → Nat → Block) (r : Nat) : IgnoresWdata (stepSchedule next r) :=
  of_legal (of_require (fun _ _ => rfl) fun _ _ => rfl)

theorem of_expandSchedule (next : Block → Nat → Block) : IgnoresWdata (expandSchedule next) :=
  of_require (fun _ _ => rfl) fun _ _ => rfl

theorem of_transformS (f : Block → Block) : IgnoresWdata (transformS fun _ => f) :=
  of_require (fun _ _ => rfl) fun _ _ => rfl

theorem of_forwardRound (f : Block → Block → Block) (r : Nat) : IgnoresWdata (forwardRound f r) :=
  of_legal (of_require (fun _ _ => rfl) (of_require (fun _ _ => rfl) fun _ _ => rfl))

theorem of_inverseRound (f : Block → Block → Block) (r : Nat) : IgnoresWdata (inverseRound f r) :=
  of_legal (of_require (fun _ _ => rfl) (of_require (fun _ _ => rfl) fun _ _ => rfl))

theorem of_wholeBlock {ok : State → Bool} {f : State → Block → Option Block → Block} (c : Bool)
    (ho : ∀ w s, ok (withWdata w s) = ok s) (hf : ∀ w s, f (withWdata w s) = f s) :
    IgnoresWdata (wholeBlock ok f c) :=
  of_require (fun _ _ => rfl) (of_require ho (of_require (fun _ _ => rfl) fun w s => by rw [hf]; rfl))

/-! The partitioner. -/

theorem of_laneBlock (c v : Bool) (t : Nat) (l : Lane) (g : Nat) : IgnoresWdata (laneBlock c v t l g) := fun w s =>
  have hwrite (m : Memory) (ls : List Lane) (es : List Event) :
      record es { withWdata w s with mem := m, lanes := ls } =
        withWdata w (record es { s with mem := m, lanes := ls }) := rfl
  hwrite _ _ _

theorem of_laneStep (c v : Bool) (t : Nat) : IgnoresWdata (laneStep c v t) := fun w s => by
  have hlanes : (withWdata w s).lanes = s.lanes := rfl
  unfold laneStep
  rw [hlanes]
  split
  · rfl
  · split_ifs
    · exact of_laneBlock c v t _ _ w s
    · rfl

theorem of_runLanes (c v : Bool) (n : Nat) : IgnoresWdata (runLanes c v n) := fun w s => by
  induction n generalizing s with
  | zero => rfl
  | succ n ih =>
    have hpick : pick (withWdata w s).sched (enabledLanes (withWdata w s)) = pick s.sched (enabledLanes s) := rfl
    rw [runLanes, runLanes, hpick]
    split
    · rfl
    · next t _ =>
      rw [← ih, ← of_laneStep]
      rfl

theorem of_parencRun (c v : Bool) : IgnoresWdata (parencRun c v) := fun w s =>
  congrArg joinLanes (of_runLanes c v (numBlocks s) w (createLanes s))

/-! The tiler. -/

theorem of_onTiler {f : Tiler → State → State} (hf : ∀ q, IgnoresWdata (f q)) : IgnoresWdata (onTiler f) :=
  fun w s => by
    have htiler : (withWdata w s).tiler = s.tiler := rfl
    unfold onTiler
    rw [htiler]
    split
    · rfl
    · exact hf _ w s

theorem of_forUpTo {f : Nat → State → State} (hf : ∀ i, IgnoresWdata (f i)) (n : Nat) :
    IgnoresWdata (forUpTo f n) := by
  induction n with
  | zero => exact fun _ _ => rfl
  | succ n ih => exact (hf n).comp ih

theorem of_loadTile : IgnoresWdata loadTile :=
  of_onTiler fun q => of_forUpTo (fun _ => of_onTiler fun _ _ _ => rfl) q.cnt

theorem of_runItems (c : Bool) (n : Nat) : IgnoresWdata (runItems c n) := fun w s => by
  induction n generalizing s with
  | zero => rfl
  | succ n ih =>
    have hpick : pick (withWdata w s).sched (waitingItems (withWdata w s)) = pick s.sched (waitingItems s) := rfl
    rw [runItems, runItems, hpick]
    split
    · rfl
    · next i _ =>
      have hitem : IgnoresWdata (workItem c i) := of_onTiler fun _ _ _ => rfl
      rw [← ih, ← hitem]
      rfl

theorem of_runKernel (c : Bool) : IgnoresWdata (runKernel c) :=
  have hlaunch : IgnoresWdata launchKernel := of_onTiler fun _ _ _ => rfl
  have hwait : IgnoresWdata (record [.wait]) := fun _ _ => rfl
  (of_onTiler fun q => hwait.comp (of_runItems c q.tile)).comp hlaunch

theorem of_readBackBlock (i : Nat) : IgnoresWdata (readBackBlock i) :=
  of_onTiler fun _ w s =>
    have hwrite (m : Memory) (es : List Event) :
        record es { withWdata w s with mem := m } = withWdata w (record es { s with mem := m }) := rfl
    hwrite _ _

theorem of_readBack : IgnoresWdata readBack := of_onTiler fun q => of_forUpTo of_readBackBlock q.cnt

theorem of_oneTile (c : Bool) : IgnoresWdata (oneTile c) :=
  have hstart : IgnoresWdata startTile := of_onTiler fun _ _ _ => rfl
  have harg : IgnoresWdata setArgOffset := of_onTiler fun _ _ _ => rfl
  have hadvance : IgnoresWdata advanceTile := of_onTiler fun _ _ _ => rfl
  hadvance.comp (of_readBack.comp ((of_runKernel c).comp (harg.comp (of_loadTile.comp hstart))))

theorem of_runTiles (c : Bool) (n : Nat) : IgnoresWdata (runTiles c n) := fun w s => by
  induction n generalizing s with
  | zero => rfl
  | succ n ih =>
    have hleft : tilesLeft (withWdata w s) = tilesLeft s := rfl
    rw [runTiles, runTiles, hleft]
    split_ifs
    · rw [← ih, of_oneTile]
    · rfl

theorem of_gpuRun (c : Bool) : IgnoresWdata (gpuRun c) := fun w s => by
  have hfinish : IgnoresWdata tilerFinish := of_onTiler fun _ _ _ => rfl
  rw [gpuRun, gpuRun, ← hfinish, ← of_runTiles]
  rfl

end IgnoresWdata

open IgnoresWdata in
/-- A command that does not take `WDATA` ignores it. -/
theorem exec_withWdata {i : Instr} {s t : State} (hi : i.takesWdata = false) (w : Block) (h : exec i s = .next t) :
    exec i (withWdata w s) = .next (withWdata w t) := by
  cases i with
  | wrcfg sel | ldkey | lds | ldctr => contradiction
  | nop | gfmul a b | gfmul2 a | gfmul3 a => exact next_of_command w h fun _ _ => rfl
  | rdstat | sreset => exact Host.Outcome.next.inj h ▸ rfl
  | rdcfg sel =>
    have hread (w : Block) (s : State) : readCfg (withWdata w s) sel = readCfg s sel := by cases sel <;> rfl
    exact next_of_command w h fun w s => by rw [hread]; rfl
  | kseed | kinv | rds => exact next_of_command w h (of_require (fun _ _ => rfl) fun _ _ => rfl)
  | kstept r | kassist r => exact next_of_command w h (of_stepSchedule _ r)
  | kexpt | kexpv => exact next_of_command w h (of_expandSchedule _)
  | rdrk r | rdik r => exact next_of_command w h (of_legal (of_require (fun _ _ => rfl) fun _ _ => rfl))
  | ldblk idx => exact next_of_command w h (of_blockAccess (fun _ _ => rfl) fun _ _ => rfl)
  | stblk idx =>
    exact next_of_command w h
      (of_require (fun _ _ => rfl) (of_blockAccess (fun _ _ => rfl) (of_respondZero (of_withMem fun _ _ => rfl))))
  | subb | shrow | mixcol | isubb | ishrow | imixcol => exact next_of_command w h (of_transformS _)
  | addrk r | venc r | venclast r => exact next_of_command w h (of_forwardRound _ r)
  | xctr =>
    exact next_of_command w h (of_require (fun _ _ => rfl) (of_require (fun _ _ => rfl) fun _ _ => rfl))
  | vdec r | vdeclast r => exact next_of_command w h (of_inverseRound _ r)
  | enct c | encv c | decv c => exact next_of_command w h (of_wholeBlock c (fun _ _ => rfl) fun _ _ => rfl)
  | parenc c v => exact next_of_command w h (of_checkAll (fun _ _ => rfl) (of_respondZero (of_parencRun c v)))
  | gpudisp c => exact next_of_command w h (of_checkAll (fun _ _ => rfl) (of_respondZero (of_gpuRun c)))

/-! `WRCFG`. -/

theorem wdataLow_eq (s : State) : wdataLow s = s.wdata.extractLsb' 0 64 := BitVec.setWidth_eq_extractLsb' (by decide)

theorem writeCfg_withWdata (q : CfgReg) (v : Word64) (w : Block) (s : State) :
    writeCfg q v (withWdata w s) = withWdata w (writeCfg q v s) := by cases q <;> rfl

/-- A writable register reads what was written to it. -/
theorem readCfg_writeCfg {q : CfgReg} (hq : q.writable = true) (v : Word64) (s : State) :
    readCfg (writeCfg q v s) q = v := by
  cases q with
  | nBlocks | threads | inBase | outBase => rfl
  | clb | lanes | devCeil | devInfo | gpuOffset | gpuTile | gpuTiles => contradiction

/-- `WRCFG` on a live core (spec/47_host_commands.md R218). -/
theorem exec_wrcfg {s : State} {q : CfgReg} (hl : s.live) (hq : q.writable = true) :
    exec (.wrcfg q) s = .next (respondZero (writeCfg q (s.wdata.extractLsb' 0 64) s)) := by
  rw [exec, execWrcfg, command_live hl, legal_true hq, wdataLow_eq]

/-- `WRCFG` does the same with another operand that has the same low bits. -/
theorem exec_wrcfg_withWdata {q : CfgReg} {s t : State} {w : Block} (hw : w.extractLsb' 0 64 = s.wdata.extractLsb' 0 64)
    (h : exec (.wrcfg q) s = .next t) : exec (.wrcfg q) (withWdata w s) = .next (withWdata w t) := by
  have hlow : wdataLow (withWdata w s) = wdataLow s := by rw [wdataLow_eq, wdataLow_eq]; exact hw
  have hbody : IgnoresWdata (legal q.writable fun u => respondZero (writeCfg q (wdataLow s) u)) :=
    .of_legal (.of_respondZero fun w u => writeCfg_withWdata q _ w u)
  refine IgnoresWdata.command_withWdata h ?_
  exact (congrArg (fun v => legal q.writable (fun u => respondZero (writeCfg q v u)) (withWdata w s)) hlow).trans
    (hbody w s)

/-- Settles O16: the four readers by their own equations, the others since what they do ignores the operand. -/
theorem whoReadsWdata : Obligations.WhoReadsWdata := by
  refine ⟨fun s hl => ⟨?_, ?_, ?_, fun q hq => ?_⟩, fun q s t w => exec_wrcfg_withWdata,
    fun i s t w hi => exec_withWdata hi w⟩
  · exact ⟨_, by rw [exec, execLdkey, command_live hl], rfl⟩
  · exact ⟨_, by rw [exec, execLds, command_live hl], rfl⟩
  · exact ⟨_, by rw [exec, execLdctr, command_live hl], rfl⟩
  · exact ⟨_, exec_wrcfg hl hq, readCfg_writeCfg hq _ s⟩

end Sys2Proof.Machine
end

section
/-! PROOFS. The encryption and decryption paths (spec/30_encoding.md R90, spec/44_block_cipher.md R164 to R166): the
stepped forms run the rounds of the whole-block commands one after the other. -/

namespace Sys2Proof.Machine

/-! The tables and the multiplier give the same column mix. -/

theorem mul2_eq_multiply (a : Byte) : mul2 a = multiply 0x02#8 a := by
  revert a
  decide +kernel

theorem mul3_eq_multiply (a : Byte) : mul3 a = multiply 0x03#8 a := by
  revert a
  decide +kernel

/-- `MixColumns` is the same through the tables (spec/43_round_primitives.md R138). -/
theorem mixColumnsT_eq_mixColumns : mixColumnsT = mixColumns := by
  funext s
  rw [mixColumnsT, mixColumns, funext mul2_eq_multiply, funext mul3_eq_multiply]

/-- The table-driven path encrypts as the hardware-instruction path does (spec/44_block_cipher.md R164, R165). -/
theorem encryptT_eq_encryptV : encryptT = encryptV := by
  funext b rk ctr
  rw [encryptT, encryptV, mixColumnsT_eq_mixColumns]

/-! Runs of commands that transform `S`. -/

/-- `s` in the middle of a run that transforms `S`: the block and the last response are others. -/
def State.atBlock (s : State) (b : Block) (p : Rsp) (d : Block) : State := { s with regS := b, rsp := p, rdata := d }

/-- The commands `l`, run on `s` with any block in `S`, make `f` of the block and change nothing else. -/
def Transforms (s : State) (l : List Instr) (f : Block → Block) : Prop :=
  ∀ b p d, runCommands l (s.atBlock b p d) = .next (withS (f b) 0#128 s)

theorem runCommands_append {l l' : List Instr} {s t : State} (h : runCommands l s = .next t) :
    runCommands (l ++ l') s = runCommands l' t := by
  induction l generalizing s with
  | nil => rw [Host.Outcome.next.inj h, List.nil_append]
  | cons i l ih =>
    rw [List.cons_append, runCommands]
    rw [runCommands] at h
    cases he : exec i s with
    | next u =>
      rw [he] at h
      exact ih h
    | fault r => cases r
    | refused r => rw [he] at h; cases h

theorem runCommands_singleton (i : Instr) (s : State) : runCommands [i] s = exec i s := by
  rw [runCommands]
  cases exec i s <;> rfl

namespace Transforms

variable {s : State} {l l' : List Instr} {f g : Block → Block}

theorem run (h : Transforms s l f) : runCommands l s = .next (withS (f s.regS) 0#128 s) := h s.regS s.rsp s.rdata

theorem append (h : Transforms s l f) (h' : Transforms s l' g) : Transforms s (l ++ l') fun b => g (f b) :=
  fun b p d => (runCommands_append (h b p d)).trans (h' (f b) .ok 0#128)

/-! Each primitive on a live core whose valid bits are set. -/

theorem of_command {i : Instr} {body : State → State} (hl : s.live) (hi : ∀ u, exec i u = command body u)
    (hb : ∀ b p d, body (s.atBlock b p d) = withS (f b) 0#128 s) : Transforms s [i] f := fun b p d => by
  have hlive : (s.atBlock b p d).live := hl
  rw [runCommands_singleton, hi, command_live hlive, hb]

theorem of_transformS (hv : s.sV = true) (f : Block → Block) (b : Block) (p : Rsp) (d : Block) :
    transformS (fun _ => f) (s.atBlock b p d) = withS (f b) 0#128 s := by
  have hvalid : (s.atBlock b p d).sV = true := hv
  rw [transformS, require_true hvalid]
  rfl

theorem of_subb (hl : s.live) (hv : s.sV = true) : Transforms s [.subb] subBytes :=
  of_command hl (fun _ => rfl) (of_transformS hv _)

theorem of_shrow (hl : s.live) (hv : s.sV = true) : Transforms s [.shrow] shiftRows :=
  of_command hl (fun _ => rfl) (of_transformS hv _)

theorem of_mixcol (hl : s.live) (hv : s.sV = true) : Transforms s [.mixcol] mixColumns :=
  mixColumnsT_eq_mixColumns ▸ of_command hl (fun _ => rfl) (of_transformS hv _)

theorem of_xctr (hl : s.live) (hv : s.sV = true) (hc : s.ctrV = true) : Transforms s [.xctr] (· ^^^ s.regCtr) :=
  of_command hl (fun _ => rfl) fun b p d => by
    have hvalid : (s.atBlock b p d).sV = true := hv
    have hctr : (s.atBlock b p d).ctrV = true := hc
    rw [require_true hvalid, require_true hctr]
    rfl

theorem of_forwardRound (hv : s.sV = true) {r : Nat} (hr : r ≤ 10) (hk : rkValid s r = true)
    (f : Block → Block → Block) (b : Block) (p : Rsp) (d : Block) :
    forwardRound f r (s.atBlock b p d) = withS (f (rkAt s r) b) 0#128 s := by
  have hvalid : (s.atBlock b p d).sV = true := hv
  have hindex : roundIndexOk r = true := decide_eq_true hr
  have hkey : rkValid (s.atBlock b p d) r = true := hk
  rw [forwardRound, legal_true hindex, require_true hvalid, require_true hkey]
  rfl

theorem of_inverseRound (hv : s.sV = true) {r : Nat} (hr : r ≤ 10) (hk : s.ikV = true)
    (f : Block → Block → Block) (b : Block) (p : Rsp) (d : Block) :
    inverseRound f r (s.atBlock b p d) = withS (f (ikAt s r) b) 0#128 s := by
  have hvalid : (s.atBlock b p d).sV = true := hv
  have hindex : roundIndexOk r = true := decide_eq_true hr
  have hkey : (s.atBlock b p d).ikV = true := hk
  rw [inverseRound, legal_true hindex, require_true hvalid, require_true hkey]
  rfl

section
variable (hl : s.live) (hv : s.sV = true) {r : Nat} (hr : r ≤ 10)
include hl hv hr

theorem of_addrk (hk : rkValid s r = true) : Transforms s [.addrk r] (addRoundKey · (rkAt s r)) :=
  of_command hl (fun _ => rfl) (of_forwardRound hv hr hk _)

theorem of_venc (hk : rkValid s r = true) : Transforms s [.venc r] (encRound mixColumns (rkAt s r)) :=
  of_command hl (fun _ => rfl) (of_forwardRound hv hr hk _)

theorem of_venclast (hk : rkValid s r = true) : Transforms s [.venclast r] (encLastRound (rkAt s r)) :=
  of_command hl (fun _ => rfl) (of_forwardRound hv hr hk _)

theorem of_vdec (hk : s.ikV = true) : Transforms s [.vdec r] (decRound (ikAt s r)) :=
  of_command hl (fun _ => rfl) (of_inverseRound hv hr hk _)

theorem of_vdeclast (hk : s.ikV = true) : Transforms s [.vdeclast r] (decLastRound (ikAt s r)) :=
  of_command hl (fun _ => rfl) (of_inverseRound hv hr hk _)

end

end Transforms

/-! Rounds in a row. -/

/-- The commands of rounds 1 to `n`, where `mid r` are those of round `r`. -/
def commandsUp (mid : Nat → List Instr) : Nat → List Instr
  | 0 => []
  | n + 1 => commandsUp mid n ++ mid (n + 1)

/-- The commands of rounds `n` to 1. -/
def commandsDown (mid : Nat → List Instr) : Nat → List Instr
  | 0 => []
  | n + 1 => mid (n + 1) ++ commandsDown mid n

theorem encSteps_eq : encSteps = [.addrk 0] ++ commandsUp encStepsMiddle 9 ++ [.subb, .shrow, .addrk 10] := rfl

theorem encRounds_eq : encRounds = [.addrk 0] ++ commandsUp (fun r => [.venc r]) 9 ++ [.venclast 10] := rfl

theorem decRounds_eq : decRounds = [.addrk 10] ++ commandsDown (fun r => [.vdec r]) 9 ++ [.vdeclast 0] := rfl

namespace Transforms

variable {s : State} {l : List Instr} {mid : Nat → List Instr} {f : Block → Block} {g : Nat → Block → Block}

theorem append_roundsUp (h : Transforms s l f) {n : Nat} (hmid : ∀ r, r ≤ n → Transforms s (mid r) (g r)) :
    Transforms s (l ++ commandsUp mid n) fun b => roundsUp g n (f b) := by
  induction n with
  | zero => rwa [commandsUp, List.append_nil]
  | succ n ih =>
    rw [commandsUp, ← List.append_assoc]
    exact (ih fun r hr => hmid r (Nat.le_succ_of_le hr)).append (hmid (n + 1) (le_refl _))

theorem append_roundsDown (h : Transforms s l f) {n : Nat} (hmid : ∀ r, r ≤ n → Transforms s (mid r) (g r)) :
    Transforms s (l ++ commandsDown mid n) fun b => roundsDown g n (f b) := by
  induction n generalizing l f with
  | zero => rwa [commandsDown, List.append_nil]
  | succ n ih =>
    rw [commandsDown, ← List.append_assoc]
    exact ih (h.append (hmid (n + 1) (le_refl _))) fun r hr => hmid r (Nat.le_succ_of_le hr)

/-! The stepped forms. -/

section
variable (hl : s.live) (hv : s.sV = true)
include hl hv

/-- `ENC.STEPS` encrypts without the counter (spec/30_encoding.md R90). -/
theorem of_encSteps (hk : ∀ r, r ≤ 10 → rkValid s r = true) :
    Transforms s encSteps fun b => encryptV b (rkAt s) none := by
  have hmid (r : Nat) (hr : r ≤ 9) : Transforms s (encStepsMiddle r) (encRound mixColumns (rkAt s r)) :=
    (((of_subb hl hv).append (of_shrow hl hv)).append (of_mixcol hl hv)).append
      (of_addrk hl hv (by omega) (hk r (by omega)))
  have hlast : Transforms s [.subb, .shrow, .addrk 10] (encLastRound (rkAt s 10)) :=
    ((of_subb hl hv).append (of_shrow hl hv)).append (of_addrk hl hv (le_refl _) (hk 10 (le_refl _)))
  rw [encSteps_eq]
  exact ((of_addrk hl hv (by omega) (hk 0 (by omega))).append_roundsUp hmid).append hlast

/-- `ENC.ROUNDS` encrypts without the counter (R90). -/
theorem of_encRounds (hk : ∀ r, r ≤ 10 → rkValid s r = true) :
    Transforms s encRounds fun b => encryptV b (rkAt s) none := by
  have hmid (r : Nat) (hr : r ≤ 9) : Transforms s [.venc r] (encRound mixColumns (rkAt s r)) :=
    of_venc hl hv (by omega) (hk r (by omega))
  rw [encRounds_eq]
  exact ((of_addrk hl hv (by omega) (hk 0 (by omega))).append_roundsUp hmid).append
    (of_venclast hl hv (le_refl _) (hk 10 (le_refl _)))

/-- `DEC.ROUNDS` decrypts without the counter, with `RK[10]` for `IK[10]` (R90). -/
theorem of_decRounds (hi : s.ikV = true) (hk : rkValid s 10 = true) (he : rkAt s 10 = ikAt s 10) :
    Transforms s decRounds fun b => decryptBlock b (ikAt s) none := by
  have hmid (r : Nat) (hr : r ≤ 9) : Transforms s [.vdec r] (decRound (ikAt s r)) := of_vdec hl hv (by omega) hi
  have hfirst : Transforms s [.addrk 10] (addRoundKey · (ikAt s 10)) := he ▸ of_addrk hl hv (le_refl _) hk
  rw [decRounds_eq]
  exact (hfirst.append_roundsDown hmid).append (of_vdeclast hl hv (by omega) hi)

/-- The counter of a stepped form is an `XCTR` before it (spec/44_block_cipher.md R168). -/
theorem xctr_append {c : Bool} (hc : c = true → s.ctrV = true)
    (h : Transforms s l fun b => encryptV b (rkAt s) none) :
    Transforms s ((if c then [.xctr] else []) ++ l) fun b => encryptV b (rkAt s) (counterOperand c s) := by
  cases c
  · exact h
  · exact (of_xctr hl hv (hc rfl)).append h

end

end Transforms

/-- A whole-block command whose valid bits are set leaves the new block in `S` and in the response. -/
theorem wholeBlock_valid {s : State} {ok : State → Bool} {c : Bool} (hv : s.sV = true) (hk : ok s = true)
    (hc : c = true → s.ctrV = true) (f : State → Block → Option Block → Block) :
    wholeBlock ok f c s = withS (f s s.regS (counterOperand c s)) (f s s.regS (counterOperand c s)) s := by
  have hctr : ctrOk c s = true := by cases c <;> simp_all [ctrOk]
  rw [wholeBlock, require_true hv, require_true hk, require_true hctr]
  rfl

/-- Settles O44: each path is `EncryptBlock`, the stepped ones round by round. -/
theorem encryptionPathsAgree : Obligations.EncryptionPathsAgree := by
  intro s c hl hv hrkv hc
  have hks : ksValid s = true := by rw [ksValid, hrkv]; rfl
  have hk := (ksValid_iff s).mp hks
  refine ⟨encryptV s.regS (rkAt s) (counterOperand c s), ?_, ?_, ?_, ?_⟩
  · rw [exec, execEnct, command_live hl, wholeBlock_valid hv hks hc, encryptT_eq_encryptV]
  · rw [exec, execEncv, command_live hl, wholeBlock_valid hv hks hc]
  · exact (Transforms.xctr_append hl hv hc (.of_encSteps hl hv hk)).run
  · exact (Transforms.xctr_append hl hv hc (.of_encRounds hl hv hk)).run

/-- Settles O45: `DEC.ROUNDS` is `DecryptBlock` round by round; it starts with `RK[10]`, which the invariant makes
`IK[10]`. -/
theorem decryptionPathsAgree : Obligations.DecryptionPathsAgree := by
  intro s hs hl hv hi
  obtain ⟨hks, hik⟩ := hs.inverse hi
  have hk : rkValid s 10 = true := (ksValid_iff s).mp hks 10 (le_refl _)
  have he : rkAt s 10 = ikAt s 10 := (hs.schedule 10 (le_refl _) hk).2.trans (hik 10 (le_refl _)).symm
  refine ⟨decryptBlock s.regS (ikAt s) none, ?_, ?_⟩
  · rw [exec, execDecv, command_live hl, wholeBlock_valid hv hi (by simp)]
    rfl
  · exact (Transforms.of_decRounds hl hv hi hk he).run

end Sys2Proof.Machine
end

section
/-! PROOFS. The Galois field (spec/40_galois_field.md R95 to R100). The loop of `Multiply` only adds and multiplies by
`x`, and it makes every byte from 1. So a map that keeps both operations is `Multiply` by its value at 1, and the laws
of the field follow from applying this to products themselves. -/

namespace Sys2Proof.Machine

/-! Maps linear over the polynomials in `x`. -/

/-- `f` keeps sums and products by `x`. -/
structure KeepsSumsAndTimesX (f : Byte → Byte) : Prop where
  map_xor : ∀ a b, f (a ^^^ b) = f a ^^^ f b
  map_timesX : ∀ a, f (timesX a) = timesX (f a)

theorem KeepsSumsAndTimesX.map_multiplyLoop {f : Byte → Byte} (hf : KeepsSumsAndTimesX f) (n : Nat) (p a b : Byte) :
    f (multiplyLoop n p a b) = multiplyLoop n (f p) (f a) b := by
  induction n generalizing p a b with
  | zero => rfl
  | succ n ih => rw [multiplyLoop, multiplyLoop, ih, hf.map_timesX, apply_ite f, hf.map_xor]

/-- A linear map moves into the first factor of a product. -/
theorem KeepsSumsAndTimesX.map_multiply {f : Byte → Byte} (hf : KeepsSumsAndTimesX f) (a b : Byte) :
    f (multiply a b) = multiply (f a) b := by
  have hzero : f 0x00#8 = 0x00#8 := by simpa using hf.map_xor 0x00#8 0x00#8
  rw [multiply, hf.map_multiplyLoop, hzero, multiply]

/-! Products are linear in the first factor. -/

theorem timesX_eq (a : Byte) : timesX a = (a <<< 1) ^^^ (if a.getLsbD 7 then 0x1B#8 else 0x00#8) := by
  rw [timesX]
  split
  · rfl
  · rw [BitVec.xor_zero]

theorem timesX_xor (a b : Byte) : timesX (a ^^^ b) = timesX a ^^^ timesX b := by
  have hreduce : ∀ c d : Bool, (if c ^^ d then 0x1B#8 else 0x00#8) =
      (if c then 0x1B#8 else 0x00#8) ^^^ (if d then 0x1B#8 else 0x00#8) := by decide
  rw [timesX_eq, timesX_eq, timesX_eq, BitVec.shiftLeft_xor_distrib, BitVec.getLsbD_xor, hreduce]
  ac_rfl

theorem keepsSumsAndTimesX_timesX : KeepsSumsAndTimesX timesX := ⟨timesX_xor, fun _ => rfl⟩

theorem multiplyLoop_xor (n : Nat) (p q a a' b : Byte) :
    multiplyLoop n (p ^^^ q) (a ^^^ a') b = multiplyLoop n p a b ^^^ multiplyLoop n q a' b := by
  induction n generalizing p q a a' b with
  | zero => rfl
  | succ n ih =>
    have hp : (if b.getLsbD 0 then p ^^^ q ^^^ (a ^^^ a') else p ^^^ q) =
        (if b.getLsbD 0 then p ^^^ a else p) ^^^ (if b.getLsbD 0 then q ^^^ a' else q) := by
      split
      · ac_rfl
      · rfl
    rw [multiplyLoop, hp, timesX_xor, ih, multiplyLoop, multiplyLoop]

theorem xor_multiply (a b c : Byte) : multiply (a ^^^ b) c = multiply a c ^^^ multiply b c :=
  multiplyLoop_xor 8 0x00#8 0x00#8 a b c

theorem timesX_multiply (a b : Byte) : timesX (multiply a b) = multiply (timesX a) b :=
  keepsSumsAndTimesX_timesX.map_multiply a b

theorem keepsSumsAndTimesX_multiply (b : Byte) : KeepsSumsAndTimesX (multiply · b) :=
  ⟨fun a c => xor_multiply a c b, fun a => (timesX_multiply a b).symm⟩

/-! The ring laws (R100). -/

/-- The loop makes every byte from 1. -/
theorem one_multiply (b : Byte) : multiply 0x01#8 b = b := by
  revert b
  decide +kernel

theorem multiply_right_comm (a b c : Byte) : multiply (multiply a b) c = multiply (multiply a c) b :=
  (keepsSumsAndTimesX_multiply c).map_multiply a b

theorem multiply_comm (a b : Byte) : multiply a b = multiply b a := by
  simpa only [one_multiply] using multiply_right_comm 0x01#8 a b

theorem multiply_assoc (a b c : Byte) : multiply a (multiply b c) = multiply (multiply a b) c :=
  calc multiply a (multiply b c)
    _ = multiply (multiply b c) a := multiply_comm _ _
    _ = multiply (multiply b a) c := multiply_right_comm _ _ _
    _ = multiply (multiply a b) c := by rw [multiply_comm b a]

theorem multiply_xor (a b c : Byte) : multiply a (b ^^^ c) = multiply a b ^^^ multiply a c := by
  rw [multiply_comm, xor_multiply, multiply_comm b, multiply_comm c]

theorem multiply_one (a : Byte) : multiply a 0x01#8 = a := by
  rw [multiply_comm, one_multiply]

theorem multiply_two (a : Byte) : multiply a 0x02#8 = timesX a :=
  calc multiply a 0x02#8
    _ = multiply (timesX 0x01#8) a := multiply_comm _ _
    _ = timesX (multiply 0x01#8 a) := (timesX_multiply _ _).symm
    _ = timesX a := by rw [one_multiply]

/-! The inverse. The nonzero bytes are a group of 255 elements, so the inverse of `a` is its power 254. -/

/-- `a` to the power `2 ^ n - 1`. -/
def mersennePower (a : Byte) : Nat → Byte
  | 0 => 0x01#8
  | n + 1 => multiply a (multiply (mersennePower a n) (mersennePower a n))

/-- `a` to the power 254, the square of its power 127. -/
def fieldInverse (a : Byte) : Byte := multiply (mersennePower a 7) (mersennePower a 7)

/-- Each nonzero byte to the power 255 is 1, because `0x11B` is irreducible. -/
theorem multiply_fieldInverse {a : Byte} (ha : a ≠ 0x00#8) : multiply a (fieldInverse a) = 0x01#8 := by
  revert a
  decide +kernel

theorem eq_of_multiply_eq_one {a x y : Byte} (hx : multiply a x = 0x01#8) (hy : multiply a y = 0x01#8) : y = x :=
  calc y
    _ = multiply (multiply a x) y := by rw [hx, one_multiply]
    _ = multiply (multiply a y) x := multiply_right_comm _ _ _
    _ = x := by rw [hy, one_multiply]

/-- Settles O22: the laws follow from the linearity of products, the inverse is the power 254. -/
theorem multiplyIsTheFieldProduct : Obligations.MultiplyIsTheFieldProduct :=
  ⟨multiply_comm, multiply_assoc, multiply_xor, multiply_one,
    fun a => (multiply_two a).trans (timesX_eq a),
    fun a ha => ⟨fieldInverse a, multiply_fieldInverse ha, fun _ => eq_of_multiply_eq_one (multiply_fieldInverse ha)⟩⟩

/-! The tables of `GFMUL2` and `GFMUL3` (R98, R99). -/

theorem mul2_eq (a : Byte) : mul2 a = multiply a 0x02#8 := by
  rw [mul2_eq_multiply, multiply_comm]

theorem mul3_eq (a : Byte) : mul3 a = multiply a 0x02#8 ^^^ a :=
  calc mul3 a
    _ = multiply (0x02#8 ^^^ 0x01#8) a := mul3_eq_multiply a
    _ = multiply a 0x02#8 ^^^ a := by rw [xor_multiply, one_multiply, multiply_comm]

/-- A command that is one response responds with it and changes nothing else. -/
theorem respondsOnly_of_respond {i : Instr} {v : Block} {s : State} (hl : s.live)
    (h : exec i s = command (respond v) s) : respondsOnly i v s := by
  rw [respondsOnly, h, command_live hl]
  rfl

/-- Settles O21: on a live core each command is its response, and the tables agree with the multiplier. -/
theorem galoisCommandsRespondProducts : Obligations.GaloisCommandsRespondProducts := by
  intro a b s hl
  refine ⟨?_, ?_, ?_⟩
  · exact respondsOnly_of_respond hl rfl
  · rw [← mul2_eq]
    exact respondsOnly_of_respond hl rfl
  · rw [← mul3_eq]
    exact respondsOnly_of_respond hl rfl

end Sys2Proof.Machine
end

section
/-! PROOFS. The key schedule commands (spec/41_key_schedule_table.md R105 to R113, spec/42_key_schedule_assisted.md
R124, R125, R127): what each leaves on a live core whose valid bits it finds set, and the recurrence over the words. -/

namespace Sys2Proof.Machine

/-! Illegal words and reads. -/

/-- On a live core the words whose operand fields R83 lists raise `E_ILLEGAL_CMD` (spec/30_encoding.md R83). -/
theorem illegalOperands_of_illegalFields {op : Byte} {bad : Nat → Prop} {s : State} (hl : s.live)
    (hbad : ∀ x, bad x → illegalFields op.toNat x) : illegalOperands op bad s := by
  intro x hx
  obtain ⟨e, he⟩ := (rejects_decodeOp_iff op x).mpr (hbad _ hx)
  rw [issue_error ((decode_append op x).trans he), illegalCommand, command_live hl]
  rfl

/-- An operand field beyond 10 is illegal in every command that names a round key (spec/30_encoding.md R83, R85). -/
theorem illegalOperands_formatR {op : Byte} (hop : op.toNat ∈ opcodesR) {s : State} (hl : s.live) :
    illegalOperands op (10 < ·) s :=
  illegalOperands_of_illegalFields hl fun x hx => .inr (.inr (.inl ⟨hop, by omega⟩))

/-- A command that reads a round key in range responds with it, or raises `E_UNINIT` when it is not valid. -/
theorem roundKeyRead {i : Instr} {r : Nat} {valid : State → Bool} {v : State → Block} {s : State} (hl : s.live)
    (hr : r ≤ 10)
    (hi : exec i s = command (legal (roundIndexOk r) (require valid fun s => respond (v s) s)) s) :
    (valid s = true → respondsOnly i (v s) s) ∧ (valid s = false → faultsWith i 0x02#8 s) := by
  have hok : roundIndexOk r = true := decide_eq_true hr
  rw [respondsOnly, faultsWith, hi, command_live hl, legal_true hok]
  constructor
  · intro hv
    rw [require_true hv]
    rfl
  · intro hv
    rw [require_false hv]
    rfl

/-- Settles O31: both commands are reads of a round key. -/
theorem roundKeysAreReadable : Obligations.RoundKeysAreReadable := by
  intro s hl
  refine ⟨fun r hr => ?_, illegalOperands_formatR (by decide) hl, illegalOperands_formatR (by decide) hl⟩
  obtain ⟨hrdrk, hrdrkFault⟩ := roundKeyRead (i := .rdrk r) hl hr rfl
  obtain ⟨hrdik, hrdikFault⟩ := roundKeyRead (i := .rdik r) hl hr rfl
  exact ⟨hrdrk, hrdrkFault, hrdik, hrdikFault⟩

/-- Settles O24: on a live core `LDKEY` is its five writes, and a word of format Z has no operand. -/
theorem ldkeyDiscardsTheSchedules : Obligations.LdkeyDiscardsTheSchedules := by
  intro s hl
  refine ⟨?_, illegalOperands_of_illegalFields hl fun x hx => .inr (.inl ⟨by decide, hx⟩)⟩
  rw [exec, execLdkey, command_live hl]
  rfl

/-! The write of one round key (spec/10_state.md R24, R29). -/

theorem rkAt_writeRk_same (s : State) {r : Nat} (v : Block) (hr : r ≤ 10) : rkAt (writeRk r v s) r = v := by
  rw [rkAt_writeRk s v hr hr, if_pos rfl]

theorem rkValid_writeRk_same (s : State) {r : Nat} (v : Block) (hr : r ≤ 10) : rkValid (writeRk r v s) r = true := by
  simp [rkValid_writeRk r r v s hr]

/-- The other round keys and bits keep their values. -/
theorem writeRk_other (s : State) {r j : Nat} (v : Block) (hr : r ≤ 10) (hj : j ≤ 10) (hne : j ≠ r) :
    rkAt (writeRk r v s) j = rkAt s j ∧ rkValid (writeRk r v s) j = rkValid s j := by
  rw [rkAt_writeRk s v hr hj, if_neg hne, rkValid_writeRk r j v s hj]
  simp [hne]

theorem exec_kseed {s : State} (hl : s.live) (hk : s.keyV = true) :
    exec .kseed s = .next (respondZero (writeRk 0 s.regKey s)) := by
  rw [exec, execKseed, command_live hl, require_true hk]

/-- Settles O25: `KSEED` is the write of `KEY` as round key 0. -/
theorem kseedSeedsRoundKeyZero : Obligations.KseedSeedsRoundKeyZero := fun s hl hk =>
  ⟨respondZero (writeRk 0 s.regKey s), exec_kseed hl hk, rfl, rfl, rfl, rkAt_writeRk_same s s.regKey (Nat.zero_le _),
    rkValid_writeRk_same s s.regKey (Nat.zero_le _),
    fun _ h1 hj => writeRk_other s s.regKey (Nat.zero_le _) hj (Nat.one_le_iff_ne_zero.mp h1)⟩

/-- A step command in range writes the round key after a valid one (spec/41_key_schedule_table.md R111). -/
theorem stepSchedule_valid {s : State} {r : Nat} (h1 : 1 ≤ r) (hr : r ≤ 10) (hp : rkValid s (r - 1) = true)
    (next : Block → Nat → Block) :
    stepSchedule next r s = respondZero (writeRk r (next (rkAt s (r - 1)) r) s) := by
  have hok : stepIndexOk r = true := by simp [stepIndexOk, h1, hr]
  rw [stepSchedule, legal_true hok, require_true hp]

/-- Settles O26: both commands write the next round key, which is the same on both paths. -/
theorem stepCommandsDeriveTheNextRoundKey : Obligations.StepCommandsDeriveTheNextRoundKey := by
  intro s r hl h1 hr hp
  obtain ⟨q, hq⟩ : ∃ q, nextRoundKeyT (rkAt s (r - 1)) r = q := ⟨_, rfl⟩
  have hnew : rkAt (respondZero (writeRk r q s)) r = q := rkAt_writeRk_same s q hr
  refine ⟨respondZero (writeRk r q s), ?_, ?_, rfl, rfl, rfl, ?_, rkValid_writeRk_same s q hr,
    fun j hj hne => writeRk_other s q hr hj hne⟩
  · rw [exec, execKstept, command_live hl, stepSchedule_valid h1 hr hp, hq]
  · rw [exec, execKassist, command_live hl, stepSchedule_valid h1 hr hp, nextRoundKeyV_eq_nextRoundKeyT, hq]
  · rw [hnew, ← hq]
    exact isNextRoundKey_nextRoundKeyT (rkAt s (r - 1)) r

/-! The whole schedule. -/

/-- What `KEXPT` and `KEXPV` leave (spec/41_key_schedule_table.md R112). -/
def expanded (s : State) : State := respondZero (writeSchedule (schedule (derivedKey s)) s)

theorem exec_kexpt {s : State} (hl : s.live) (hk : s.keyV = true) : exec .kexpt s = .next (expanded s) := by
  rw [exec, execKexpt, command_live hl, expandSchedule, require_true hk]
  rfl

/-- The hardware-assisted path leaves the same (spec/42_key_schedule_assisted.md R125, R128). -/
theorem exec_kexpv_eq_exec_kexpt (s : State) : exec .kexpv s = exec .kexpt s := by
  rw [exec, exec, execKexpv, execKexpt, nextRoundKeyV_eq_nextRoundKeyT]

theorem rkAt_expanded (s : State) {r : Nat} (hr : r ≤ 10) : rkAt (expanded s) r = derivedKey s r :=
  roundKey_schedule (derivedKey s) hr

theorem rkAt_expanded_succ (s : State) {r : Nat} (hr : r + 1 ≤ 10) :
    rkAt (expanded s) (r + 1) = nextRoundKeyT (rkAt (expanded s) r) (r + 1) := by
  rw [rkAt_expanded s hr, rkAt_expanded s (Nat.le_of_succ_le hr)]
  rfl

/-- Settles O27: both paths leave the schedule of the table-driven recurrence. -/
theorem expandCommandsDeriveTheSchedule : Obligations.ExpandCommandsDeriveTheSchedule := by
  intro s hl hk
  refine ⟨expanded s, exec_kexpt hl hk, (exec_kexpv_eq_exec_kexpt s).trans (exec_kexpt hl hk), rfl, rfl, rfl, rfl,
    rkAt_expanded s (Nat.zero_le _), fun r h1 hr => ?_⟩
  obtain ⟨r, rfl⟩ := Nat.exists_eq_add_of_le' h1
  rw [rkAt_expanded_succ s hr]
  exact isNextRoundKey_nextRoundKeyT _ _

/-! The recurrence over the words (spec/41_key_schedule_table.md R105). -/

/-- `RotWord` by shifts (R106). -/
theorem rotWord_eq_shifts (w : Word32) : rotWord w = w <<< 8 ||| w >>> 24 := by
  apply BitVec.eq_of_getLsbD_eq
  intro i hi
  simp only [rotWord, BitVec.getLsbD_append, BitVec.getLsbD_extractLsb', BitVec.getLsbD_or, BitVec.getLsbD_shiftLeft,
    BitVec.getLsbD_ushiftRight]
  grind

/-- The first word of a round key (R108). -/
theorem wordAt_nextRoundKeyT_zero (p : Block) (r : Nat) :
    wordAt (nextRoundKeyT p r) 0 = wordAt p 0 ^^^ keyG (wordAt p 3) r := wordAt_blockOfWords _ (by decide)

/-- Each later word of a round key (R108). -/
theorem wordAt_nextRoundKeyT_succ (p : Block) (r : Nat) {j : Nat} (hj : j + 1 < 4) :
    wordAt (nextRoundKeyT p r) (j + 1) = wordAt p (j + 1) ^^^ wordAt (nextRoundKeyT p r) j := by
  rw [nextRoundKeyT, wordAt_blockOfWords _ hj, wordAt_blockOfWords _ (Nat.lt_of_succ_lt hj), nextWordT]

/-- Schedule word `4r + j` is word `j` of round key `r` (spec/10_state.md R24). -/
theorem scheduleWord_eq_wordAt (s : State) (r : Nat) {j : Nat} (hj : j < 4) :
    scheduleWord s (4 * r + j) = wordAt (rkAt s r) j := by
  rw [scheduleWord, show (4 * r + j) / 4 = r by omega, show (4 * r + j) % 4 = j by omega]

/-- The word that starts a round key. -/
theorem scheduleWord_expanded_first (s : State) {r : Nat} (hr : r + 1 ≤ 10) :
    scheduleWord (expanded s) (4 * (r + 1)) =
      scheduleWord (expanded s) (4 * r) ^^^ keyG (scheduleWord (expanded s) (4 * r + 3)) (r + 1) := by
  have hword : ∀ r, scheduleWord (expanded s) (4 * r) = wordAt (rkAt (expanded s) r) 0 :=
    fun r => scheduleWord_eq_wordAt _ r (j := 0) (by decide)
  rw [hword (r + 1), hword r, scheduleWord_eq_wordAt _ r (by decide), rkAt_expanded_succ s hr,
    wordAt_nextRoundKeyT_zero]

/-- A word that does not start a round key. -/
theorem scheduleWord_expanded_later (s : State) {r j : Nat} (hr : r + 1 ≤ 10) (hj : j + 1 < 4) :
    scheduleWord (expanded s) (4 * (r + 1) + (j + 1)) =
      scheduleWord (expanded s) (4 * r + (j + 1)) ^^^ scheduleWord (expanded s) (4 * (r + 1) + j) := by
  rw [scheduleWord_eq_wordAt _ _ hj, scheduleWord_eq_wordAt _ _ hj, scheduleWord_eq_wordAt _ _ (Nat.lt_of_succ_lt hj),
    rkAt_expanded_succ s hr, wordAt_nextRoundKeyT_succ _ _ hj]

/-- Settles O29: word `i` is word `i % 4` of round key `i / 4`, and each word of a round key follows R108. -/
theorem scheduleRecurrence : Obligations.ScheduleRecurrence := by
  intro s hl hk
  refine ⟨expanded s, exec_kexpt hl hk, fun i h4 h43 => ⟨fun hmod => ?_, fun hmod => ?_⟩⟩
  · obtain ⟨r, j, hr, hj, rfl⟩ : ∃ r j, r + 1 ≤ 10 ∧ j + 1 < 4 ∧ i = 4 * (r + 1) + (j + 1) :=
      ⟨i / 4 - 1, i % 4 - 1, by omega, by omega, by omega⟩
    rw [show 4 * (r + 1) + (j + 1) - 4 = 4 * r + (j + 1) by omega, Nat.add_succ_sub_one]
    exact scheduleWord_expanded_later s hr hj
  · obtain ⟨r, hr, rfl⟩ : ∃ r, r + 1 ≤ 10 ∧ i = 4 * (r + 1) := ⟨i / 4 - 1, by omega, by omega⟩
    rw [← rotWord_eq_shifts, BitVec.xor_assoc, Nat.mul_div_cancel_left _ (by decide)]
    exact scheduleWord_expanded_first s hr

end Sys2Proof.Machine
end

section
/-! PROOFS. A whole-schedule command is its seed and ten steps (spec/41_key_schedule_table.md R112,
spec/42_key_schedule_assisted.md R125), and the inverse schedule (R126). -/

namespace Sys2Proof.Machine

/-- A schedule array is the schedule of `f` when each of its entries is. -/
theorem eq_schedule {ks : Vector Block 11} {f : Nat → Block} (h : ∀ r, r ≤ 10 → roundKey ks r = f r) :
    ks = schedule f := by
  have hentry (v : Vector Block 11) {r : Nat} (hr : r < 11) : v[r] = roundKey v r := by simp [roundKey, hr]
  refine Vector.ext fun r hr => ?_
  have hle : r ≤ 10 := Nat.le_of_lt_succ hr
  rw [hentry ks hr, hentry (schedule f) hr, h r hle, roundKey_schedule f hle]

/-! The schedule after `KSEED` and the steps `1 .. n`. -/

/-- `t` is `s` with the round keys `0 .. n` of its key derived and valid, after the response of a key command. -/
structure DerivedUpTo (n : Nat) (s t : State) : Prop where
  frame : sameButSchedule s t
  response : t.rsp = .ok ∧ t.rdata = 0#128
  keys : ∀ r, r ≤ n → rkAt t r = derivedKey s r ∧ rkValid t r = true

/-- The write of round key `n` extends the round keys `0 .. n - 1` to `0 .. n`. -/
theorem derivedUpTo_writeRk {n : Nat} {s t : State} (hn : n ≤ 10) (hframe : sameButSchedule s t)
    (hkeys : ∀ r, r < n → rkAt t r = derivedKey s r ∧ rkValid t r = true) :
    DerivedUpTo n s (respondZero (writeRk n (derivedKey s n) t)) := by
  refine ⟨?_, ⟨rfl, rfl⟩, fun r hr => ?_⟩
  · rw [hframe]
    rfl
  · obtain rfl | hlt := Nat.eq_or_lt_of_le hr
    · exact ⟨rkAt_writeRk_same t (derivedKey s r) hn, rkValid_writeRk_same t (derivedKey s r) hn⟩
    · obtain ⟨hkey, hvalid⟩ := writeRk_other t (derivedKey s n) hn (hr.trans hn) hlt.ne
      obtain ⟨hkeyOld, hvalidOld⟩ := hkeys r hlt
      exact ⟨hkey.trans hkeyOld, hvalid.trans hvalidOld⟩

/-- `KSEED` derives round key 0 (spec/41_key_schedule_table.md R110). -/
theorem kseed_derivedUpTo {s : State} (hl : s.live) (hk : s.keyV = true) :
    ∃ t, exec .kseed s = .next t ∧ DerivedUpTo 0 s t :=
  ⟨_, exec_kseed hl hk, derivedUpTo_writeRk (Nat.zero_le _) rfl fun r hr => absurd hr r.not_lt_zero⟩

namespace DerivedUpTo

variable {n : Nat} {s t : State}

theorem live (h : DerivedUpTo n s t) (hl : s.live) : t.live := by
  rw [h.frame]
  exact hl

/-- A step derives the next round key (spec/41_key_schedule_table.md R111). -/
theorem stepSchedule_succ (h : DerivedUpTo n s t) (hn : n + 1 ≤ 10) :
    DerivedUpTo (n + 1) s (stepSchedule nextRoundKeyT (n + 1) t) := by
  obtain ⟨hkey, hvalid⟩ := h.keys n (le_refl n)
  have hnext : nextRoundKeyT (rkAt t n) (n + 1) = derivedKey s (n + 1) := by rw [hkey]; rfl
  rw [stepSchedule_valid (Nat.le_add_left 1 n) hn hvalid, Nat.add_sub_cancel, hnext]
  exact derivedUpTo_writeRk hn h.frame fun r hr => h.keys r (Nat.le_of_lt_succ hr)

/-- All eleven round keys derived are the whole schedule (spec/41_key_schedule_table.md R112). -/
theorem eq_expanded (h : DerivedUpTo 10 s t) : t = expanded s := by
  obtain ⟨hframe, ⟨hrsp, hrdata⟩, hkeys⟩ := h
  have hrk : t.rk = schedule (derivedKey s) := eq_schedule fun r hr => (hkeys r hr).1
  have hrkv : t.rkv = 0x7FF#11 := beq_iff_eq.mp ((ksValid_iff t).mpr fun r hr => (hkeys r hr).2)
  rw [hframe, hrk, hrkv, hrsp, hrdata]
  rfl

end DerivedUpTo

/-- `KSEED` and then the steps `1 .. n` by either step command (spec/42_key_schedule_assisted.md R125). -/
theorem runCommands_seedAndSteps {step : Nat → Instr} {n : Nat} {s : State}
    (hstep : ∀ r t, exec (step r) t = command (stepSchedule nextRoundKeyT r) t) (hn : n ≤ 10) (hl : s.live)
    (hk : s.keyV = true) :
    ∃ t, runCommands (.kseed :: (List.range' 1 n).map step) s = .next t ∧ DerivedUpTo n s t := by
  induction n with
  | zero =>
    obtain ⟨t, hrun, ht⟩ := kseed_derivedUpTo hl hk
    exact ⟨t, (runCommands_singleton .kseed s).trans hrun, ht⟩
  | succ n ih =>
    obtain ⟨t, hrun, ht⟩ := ih (Nat.le_of_succ_le hn)
    refine ⟨_, ?_, ht.stepSchedule_succ hn⟩
    rw [List.range'_1_concat, List.map_append, ← List.cons_append, runCommands_append hrun, List.map_singleton,
      runCommands_singleton, hstep, command_live (ht.live hl), Nat.add_comm]

theorem runCommands_seedAndTenSteps {step : Nat → Instr} {s : State}
    (hstep : ∀ r t, exec (step r) t = command (stepSchedule nextRoundKeyT r) t) (hl : s.live) (hk : s.keyV = true) :
    runCommands (.kseed :: [1, 2, 3, 4, 5, 6, 7, 8, 9, 10].map step) s = exec .kexpt s := by
  obtain ⟨t, hrun, ht⟩ := runCommands_seedAndSteps hstep (le_refl 10) hl hk
  rw [exec_kexpt hl hk, ← ht.eq_expanded]
  exact hrun

/-- Settles O28: either step command derives the next round key, and the eleven round keys are the schedule that
both whole-schedule commands leave. -/
theorem expandIsSeedAndSteps : Obligations.ExpandIsSeedAndSteps := by
  intro s hl hk
  refine ⟨runCommands_seedAndTenSteps (fun _ _ => rfl) hl hk, ?_⟩
  rw [exec_kexpv_eq_exec_kexpt]
  exact runCommands_seedAndTenSteps (fun r t => by rw [exec, execKassist, nextRoundKeyV_eq_nextRoundKeyT]) hl hk

/-! The inverse schedule. -/

/-- What `KINV` leaves (spec/42_key_schedule_assisted.md R126). -/
def inverted (s : State) : State := respondZero { s with ik := schedule (inverseRoundKey (rkAt s)), ikV := true }

theorem exec_kinv {s : State} (hl : s.live) (hs : ksValid s = true) : exec .kinv s = .next (inverted s) := by
  rw [exec, execKinv, command_live hl, require_true hs]
  rfl

theorem ikAt_inverted (s : State) {r : Nat} (hr : r ≤ 10) : ikAt (inverted s) r = inverseRoundKey (rkAt s) r :=
  roundKey_schedule (inverseRoundKey (rkAt s)) hr

/-- The first and the last round key are copied (R126). -/
theorem inverseRoundKey_outer (rk : Nat → Block) {r : Nat} (hr : ¬(1 ≤ r ∧ r ≤ 9)) : inverseRoundKey rk r = rk r :=
  if_neg hr

/-- The middle round keys are transformed (R126). -/
theorem inverseRoundKey_middle (rk : Nat → Block) {r : Nat} (hr : 1 ≤ r ∧ r ≤ 9) :
    inverseRoundKey rk r = invMixColumns (rk r) := if_pos hr

/-- Settles O30: `KINV` writes the inverse schedule of a whole valid schedule, entry by entry. -/
theorem kinvDerivesTheInverseSchedule : Obligations.KinvDerivesTheInverseSchedule := by
  intro s hl hs
  refine ⟨inverted s, exec_kinv hl (beq_iff_eq.mpr hs), rfl, rfl, rfl, rfl, ?_, ?_, fun r h1 h9 => ?_⟩
  · rw [ikAt_inverted s (Nat.zero_le _), inverseRoundKey_outer _ (by decide)]
  · rw [ikAt_inverted s (le_refl _), inverseRoundKey_outer _ (by decide)]
  · rw [ikAt_inverted s (h9.trans (by decide)), inverseRoundKey_middle _ ⟨h1, h9⟩]

end Sys2Proof.Machine
end

section
/-! PROOFS. The round primitives and the fused rounds (spec/43_round_primitives.md R136 to R154): what each
transformation does to the bytes of a block, and which commands put it into `S`. -/

namespace Sys2Proof.Machine

/-! The transformations, byte by byte. -/

theorem byteAt_subBytes (b : Block) {k : Nat} (h : k < 16) : byteAt (subBytes b) k = sbox (byteAt b k) :=
  byteAt_blockOf _ h

theorem byteAt_invSubBytes (b : Block) {k : Nat} (h : k < 16) : byteAt (invSubBytes b) k = invSbox (byteAt b k) :=
  byteAt_blockOf _ h

theorem bytes_blockOf (f : Nat → Byte) : (List.range 16).map (byteAt (blockOf f)) = (List.range 16).map f :=
  List.map_congr_left fun _ hk => byteAt_blockOf f (List.mem_range.mp hk)

/-- The permutation `SR` of R137. -/
theorem bytes_shiftRows (b : Block) :
    (List.range 16).map (byteAt (shiftRows b)) =
      [0, 5, 10, 15, 4, 9, 14, 3, 8, 13, 2, 7, 12, 1, 6, 11].map (byteAt b) := by
  rw [shiftRows, bytes_blockOf]
  rfl

/-- The permutation `ISR` of R141. -/
theorem bytes_invShiftRows (b : Block) :
    (List.range 16).map (byteAt (invShiftRows b)) =
      [0, 13, 10, 7, 4, 1, 14, 11, 8, 5, 2, 15, 12, 9, 6, 3].map (byteAt b) := by
  rw [invShiftRows, bytes_blockOf]
  rfl

/-- Row `i` of column `c` depends on column `c` only. -/
theorem byteAt_mapColumns (f : Byte → Byte → Byte → Byte → Nat → Byte) (b : Block) {c i : Nat} (hc : c < 4)
    (hi : i < 4) :
    byteAt (mapColumns f b) (4 * c + i) =
      f (byteAt b (4 * c)) (byteAt b (4 * c + 1)) (byteAt b (4 * c + 2)) (byteAt b (4 * c + 3)) i := by
  have hcolumn : (4 * c + i) / 4 = c := by omega
  have hrow : (4 * c + i) % 4 = i := by omega
  rw [mapColumns, byteAt_blockOf _ (by omega), hcolumn, hrow]

/-! The commands. -/

namespace Transforms

variable {s : State} {i : Instr} {f : Block → Block}

theorem exec_eq (h : Transforms s [i] f) : exec i s = .next (withS (f s.regS) 0#128 s) :=
  (runCommands_singleton i s).symm.trans h.run

section
variable (hl : s.live) (hv : s.sV = true)
include hl hv

theorem of_isubb : Transforms s [.isubb] invSubBytes := of_command hl (fun _ => rfl) (of_transformS hv _)

theorem of_ishrow : Transforms s [.ishrow] invShiftRows := of_command hl (fun _ => rfl) (of_transformS hv _)

theorem of_imixcol : Transforms s [.imixcol] invMixColumns := of_command hl (fun _ => rfl) (of_transformS hv _)

end

end Transforms

/-- Settles O37: `MIXCOL` reads the tables, which are the products by 2 and by 3. -/
theorem columnMixes : Obligations.ColumnMixes := by
  intro s hl hv
  refine ⟨mixColumns s.regS, invMixColumns s.regS, (Transforms.of_mixcol hl hv).exec_eq,
    (Transforms.of_imixcol hl hv).exec_eq, ?_⟩
  rintro c hc _ _ _ _ rfl rfl rfl rfl
  have mixed {i : Nat} (hi : i < 4) := byteAt_mapColumns (mixRow (multiply 2#8) (multiply 3#8)) s.regS hc hi
  have unmixed {i : Nat} (hi : i < 4) := byteAt_mapColumns invMixRow s.regS hc hi
  exact ⟨mixed (i := 0) (by decide), mixed (i := 1) (by decide), mixed (i := 2) (by decide),
    mixed (i := 3) (by decide), unmixed (i := 0) (by decide), unmixed (i := 1) (by decide),
    unmixed (i := 2) (by decide), unmixed (i := 3) (by decide)⟩

/-- Settles O39: a fused round is the composition of the primitives that run one after the other. -/
theorem fusedEncryptionRounds : Obligations.FusedEncryptionRounds := by
  intro s r hl hv hr hk
  have shifted : Transforms s [.subb, .shrow] fun b => shiftRows (subBytes b) :=
    (Transforms.of_subb hl hv).append (.of_shrow hl hv)
  have inject := Transforms.of_addrk hl hv hr hk
  exact ⟨⟨encRound mixColumns (rkAt s r) s.regS, (Transforms.of_venc hl hv hr hk).exec_eq,
      ((shifted.append (.of_mixcol hl hv)).append inject).run⟩,
    ⟨encLastRound (rkAt s r) s.regS, (Transforms.of_venclast hl hv hr hk).exec_eq, (shifted.append inject).run⟩⟩

/-- Settles O40: a fused inverse round injects `IK[r]` into the block that the inverse primitives leave. -/
theorem fusedDecryptionRounds : Obligations.FusedDecryptionRounds := by
  intro s r hl hv hr hi
  have substituted : Transforms s [.ishrow, .isubb] fun b => invSubBytes (invShiftRows b) :=
    (Transforms.of_ishrow hl hv).append (.of_isubb hl hv)
  exact ⟨⟨invMixColumns (invSubBytes (invShiftRows s.regS)), (Transforms.of_vdec hl hv hr hi).exec_eq,
      (substituted.append (.of_imixcol hl hv)).run⟩,
    ⟨invSubBytes (invShiftRows s.regS), (Transforms.of_vdeclast hl hv hr hi).exec_eq, substituted.run⟩⟩

/-- Settles O35: each byte through its table (R136, R140). -/
theorem byteSubstitutions : Obligations.ByteSubstitutions := fun s hl hv =>
  ⟨⟨subBytes s.regS, (Transforms.of_subb hl hv).exec_eq, fun _ => byteAt_subBytes s.regS⟩,
    ⟨invSubBytes s.regS, (Transforms.of_isubb hl hv).exec_eq, fun _ => byteAt_invSubBytes s.regS⟩⟩

/-- Settles O36: the index lists are those that R137 and R141 print. -/
theorem rowShifts : Obligations.RowShifts := fun s hl hv =>
  ⟨⟨shiftRows s.regS, (Transforms.of_shrow hl hv).exec_eq, bytes_shiftRows s.regS⟩,
    ⟨invShiftRows s.regS, (Transforms.of_ishrow hl hv).exec_eq, bytes_invShiftRows s.regS⟩⟩

/-- Settles O38: the injected words are `RK[r]` and `CTR` as they stand in the state. -/
theorem xorCommands : Obligations.XorCommands := fun _ hl hv =>
  ⟨fun _ hr hk => (Transforms.of_addrk hl hv hr hk).exec_eq, fun hc => (Transforms.of_xctr hl hv hc).exec_eq⟩

end Sys2Proof.Machine
end

section
/-! PROOFS. The whole-block commands are `EncryptBlock` and `DecryptBlock` (spec/44_block_cipher.md R161 to R166). -/

namespace Sys2Proof.Machine

/-- The hardware-instruction path is `EncryptBlock` round by round (R165). -/
theorem encryptV_eq_encryptBlock : encryptV = encryptBlock := rfl

/-- The table-driven path is `EncryptBlock`: its tables hold the products of the multiplier (R164). -/
theorem encryptT_eq_encryptBlock : encryptT = encryptBlock := encryptT_eq_encryptV.trans encryptV_eq_encryptBlock

/-- A whole-block command whose valid bits are set transforms `S` and responds with it. -/
theorem exec_wholeBlock_valid {i : Instr} {s : State} {ok : State → Bool} {f : State → Block → Option Block → Block}
    {c : Bool} (hi : exec i s = command (wholeBlock ok f c) s) (hl : s.live) (hv : s.sV = true) (hk : ok s = true)
    (hc : c = true → s.ctrV = true) :
    exec i s = .next (withS (f s s.regS (counterOperand c s)) (f s s.regS (counterOperand c s)) s) := by
  rw [hi, command_live hl, wholeBlock_valid hv hk hc]

/-- Settles O42: `ENCT` runs the table-driven path and `ENCV` the hardware-instruction path, and both paths are
`EncryptBlock`. -/
theorem encryptCommandsEncryptTheBlock : Obligations.EncryptCommandsEncryptTheBlock := by
  rintro s c hl hv hrkv hc y rfl
  have hks : ksValid s = true := beq_iff_eq.mpr hrkv
  constructor
  · rw [exec_wholeBlock_valid rfl hl hv hks hc, encryptT_eq_encryptBlock, counterOperand]
  · rw [exec_wholeBlock_valid rfl hl hv hks hc, encryptV_eq_encryptBlock, counterOperand]

/-- Settles O43: `DECV` runs `DecryptBlock` with the inverse schedule, and `CTR` is its operand when `c = 1`. -/
theorem decvDecryptsTheBlock : Obligations.DecvDecryptsTheBlock := by
  rintro s c hl hv hik hc y rfl
  rw [exec_wholeBlock_valid rfl hl hv hik hc, counterOperand]

end Sys2Proof.Machine
end

section
/-! PROOFS. The tests of `PARENC`, one after the other (spec/45_parallel_partitioner.md R178). -/

namespace Sys2Proof.Machine

/-! The tests on the two buffers and on the counter. -/

theorem buffersInRange_iff_buffersFit (s : State) : buffersInRange s = true ↔ buffersFit s := buffersInRange_iff s

theorem buffersApart_iff_not_buffersOverlap (s : State) : buffersApart s = true ↔ ¬ buffersOverlap s := by
  rw [buffersApart, Bool.or_eq_true, Bool.or_eq_true, beq_iff_eq, decide_eq_true_iff, decide_eq_true_iff]
  simp only [buffersOverlap, inAddr, outAddr, numBlocks]
  by_cases h : s.outBase = s.inBase
  · simp [h]
  · simp only [h, not_false_eq_true, true_and, false_or, ne_eq]
    omega

theorem ctrOk_iff (c : Bool) (s : State) : ctrOk c s = true ↔ ¬ (c = true ∧ s.ctrV = false) := by
  cases c <;> simp [ctrOk]

/-! Tests one after the other. -/

/-- What the tests `l` and the body behind them make of `s`. -/
def afterTests (body : State → State) (s : State) (l : List (Bool × ErrCode)) : State := checkAll (fun _ => l) body s

theorem afterTests_cons (body : State → State) (s : State) (ok : Bool) (e : ErrCode) (rest : List (Bool × ErrCode)) :
    afterTests body s ((ok, e) :: rest) = if ok then afterTests body s rest else raiseFault e s := by
  cases ok <;> rfl

/-- The first test, which fails exactly when `p`, raises its fault; else the tests behind it decide. -/
theorem ifFails_of_afterTests {body : State → State} {s t : State} {ok : Bool} {e : ErrCode}
    {rest : List (Bool × ErrCode)} {p q : Prop} [Decidable p] (ht : t = afterTests body s ((ok, e) :: rest))
    (hok : ok = true ↔ ¬ p) (hrest : t = afterTests body s rest → q) : if p then t = raiseFault e s else q := by
  rw [afterTests_cons] at ht
  split_ifs with hp
  · rwa [if_neg fun h => hok.mp h hp] at ht
  · exact hrest (by rwa [if_pos (hok.mpr hp)] at ht)

/-- Settles O48: test by test, each fails exactly when its line of R178 says. -/
theorem parencTestsInOrder : Obligations.ParencTestsInOrder := by
  intro s c v hl
  obtain ⟨t, ht⟩ : ∃ t, t = afterTests (fun s => respondZero (parencRun c v s)) s (parencTests c s) := ⟨_, rfl⟩
  refine ⟨t, by rw [ht, exec, execParenc, command_live hl]; rfl, ?_⟩
  refine ifFails_of_afterTests ht (by simp [ksValid]) fun ht => ?_
  refine ifFails_of_afterTests ht (ctrOk_iff c s) fun ht => ?_
  refine ifFails_of_afterTests ht (decide_eq_true_iff.trans Nat.one_le_iff_ne_zero) fun ht => ?_
  refine ifFails_of_afterTests ht (decide_eq_true_iff.trans (by omega)) fun ht => ?_
  refine ifFails_of_afterTests ht (decide_eq_true_iff.trans not_not.symm) fun ht => ?_
  refine ifFails_of_afterTests ht (decide_eq_true_iff.trans not_not.symm) fun ht => ?_
  refine ifFails_of_afterTests ht ((buffersInRange_iff_buffersFit s).trans not_not.symm) fun ht => ?_
  refine ifFails_of_afterTests ht (decide_eq_true_iff.trans not_not.symm) fun ht => ?_
  refine ifFails_of_afterTests ht (decide_eq_true_iff.trans not_not.symm) fun ht => ?_
  refine ifFails_of_afterTests ht (buffersApart_iff_not_buffersOverlap s) fun ht => ?_
  refine ifFails_of_afterTests ht (Bool.not_eq_false _).to_iff.symm fun ht => ?_
  rw [ht]
  exact ⟨(parencRun_fatal c v s).trans hl, rfl⟩

/-- The structure `ParencAllowed` is the list of the tests. -/
theorem ParencAllowed.tests_hold {c : Bool} {s : State} (h : ParencAllowed c s) :
    ∀ q ∈ parencTests c s, q.1 = true := by
  have hks : ksValid s = true := beq_iff_eq.mpr h.schedule
  have hctr : ctrOk c s = true := (ctrOk_iff c s).mpr fun ⟨hc, hv⟩ => by simp [h.counter hc] at hv
  have hfit := (buffersInRange_iff_buffersFit s).mpr h.fit
  have hapart := (buffersApart_iff_not_buffersOverlap s).mpr h.apart
  simp only [parencTests, List.forall_mem_cons, decide_eq_true_eq]
  exact ⟨hks, hctr, h.size, h.threads, h.divisible, h.slice, hfit, h.inAligned, h.outAligned, hapart, h.lanes,
    by simp⟩

/-- An allowed `PARENC` runs to its end. -/
theorem exec_parenc_allowed {c : Bool} (v : Bool) {s : State} (hl : s.live) (h : ParencAllowed c s) :
    exec (.parenc c v) s = .next (respondZero (parencRun c v s)) := by
  rw [exec, execParenc, command_live hl, checkAll, (firstFailure_none_iff _).mpr h.tests_hold]

end Sys2Proof.Machine
end

section
/-! PROOFS. The run of the lanes (spec/45_parallel_partitioner.md R177 to R186): whatever the order, each step takes one
block that no step before it has taken, and after `N` steps every block has been taken. -/

namespace Sys2Proof.Machine

/-! How many steps are left. -/

/-- The blocks that the lanes have still to do. -/
def lanesLeft (ls : List Lane) : Nat := (ls.map fun l => l.count - l.next).sum

/-- No block is left exactly when every lane is at its end (R183). -/
theorem lanesLeft_eq_zero_iff (ls : List Lane) : lanesLeft ls = 0 ↔ ∀ l ∈ ls, l.count ≤ l.next := by
  simp [lanesLeft, List.sum_eq_zero_iff, Nat.sub_eq_zero_iff_le]

/-- The step of a lane leaves one block fewer. -/
theorem lanesLeft_set {ls : List Lane} {k : Nat} {l : Lane} (hk : ls[k]? = some l) (hlt : l.next < l.count)
    (b : Option Block) : lanesLeft (ls.set k { l with next := l.next + 1, blk := b }) + 1 = lanesLeft ls := by
  induction ls generalizing k with
  | nil => simp at hk
  | cons m ls ih =>
    cases k with
    | zero =>
      obtain rfl : m = l := by simpa using hk
      simp only [lanesLeft, List.set_cons_zero, List.map_cons, List.sum_cons]
      omega
    | succ k =>
      have hrest := ih (k := k) (by simpa using hk)
      simp only [lanesLeft, List.set_cons_succ, List.map_cons, List.sum_cons] at hrest ⊢
      omega

/-- While a block is left a lane may step (R182). -/
theorem lanesLeft_eq_zero_of_pick {s : State} (h : pick s.sched (enabledLanes s) = none) : lanesLeft s.lanes = 0 := by
  rw [lanesLeft_eq_zero_iff]
  intro l hl
  obtain ⟨k, hk⟩ := List.mem_iff_getElem?.mp hl
  have hnot : k ∉ enabledLanes s := by simp [pick_eq_none_iff.mp h]
  rw [mem_enabledLanes] at hnot
  exact Nat.le_of_not_lt fun hlt => hnot ⟨l, hk, hlt⟩

/-- A choice used up and the step of a lane, of the block after those it has done (R181). -/
def nextStep (c v : Bool) (k : Nat) (l : Lane) (s : State) : State :=
  laneBlock c v k l (l.start + l.next) { s with sched := s.sched.tail }

/-- What every lane step keeps holds after the run, which ends with every lane at its end (R182, R183). -/
theorem runLanes_keeps {c v : Bool} {P : State → Prop}
    (hstep : ∀ {u k l}, P u → u.lanes[k]? = some l → l.next < l.count → P (nextStep c v k l u)) {n : Nat} {u : State}
    (hn : lanesLeft u.lanes = n) (hu : P u) :
    P (runLanes c v n u) ∧ lanesLeft (runLanes c v n u).lanes = 0 := by
  induction n generalizing u with
  | zero => exact ⟨hu, hn⟩
  | succ n ih =>
    rw [runLanes]
    cases hp : pick u.sched (enabledLanes u) with
    | none => exact absurd (hn.symm.trans (lanesLeft_eq_zero_of_pick hp)) (Nat.succ_ne_zero n)
    | some k =>
      obtain ⟨l, hk, hlt⟩ := (mem_enabledLanes u k).mp (pick_mem hp)
      have hleft : lanesLeft (nextStep c v k l u).lanes = n :=
        Nat.succ_injective ((lanesLeft_set hk hlt _).trans hn)
      have hrun : laneStep c v k { u with sched := u.sched.tail } = nextStep c v k l u := laneStep_enabled c v hk hlt
      simp only [hrun]
      exact ih hleft (hstep hu hk hlt)

/-! The slices (R177). -/

theorem inSlice_lt {s : State} {k g : Nat} (h : inSlice s k g) : g < numBlocks s := by
  obtain ⟨hk, -, hg⟩ := h
  calc g < (k + 1) * (s.nBlocks.toNat / s.threads.toNat) := hg
    _ ≤ s.threads.toNat * (s.nBlocks.toNat / s.threads.toNat) := Nat.mul_le_mul_right _ hk
    _ ≤ numBlocks s := Nat.mul_div_le _ _

/-- The slices are disjoint. -/
theorem inSlice_unique {s : State} {k k' g : Nat} (h : inSlice s k g) (h' : inSlice s k' g) : k = k' := by
  obtain ⟨-, hlo, hhi⟩ := h
  obtain ⟨-, hlo', hhi'⟩ := h'
  have hle : k < k' + 1 := lt_of_mul_lt_mul_right (hlo.trans_lt hhi') (Nat.zero_le _)
  have hge : k' < k + 1 := lt_of_mul_lt_mul_right (hlo'.trans_lt hhi) (Nat.zero_le _)
  omega

/-- The slices make up the buffer, which they divide evenly. -/
theorem exists_inSlice {s : State} (hdiv : s.nBlocks.toNat % s.threads.toNat = 0) {g : Nat} (hg : g < numBlocks s) :
    ∃ k, inSlice s k g := by
  have htotal : s.nBlocks.toNat / s.threads.toNat * s.threads.toNat = s.nBlocks.toNat :=
    Nat.div_mul_cancel (Nat.dvd_of_mod_eq_zero hdiv)
  have hper : 0 < s.nBlocks.toNat / s.threads.toNat := by
    refine Nat.pos_of_ne_zero fun h0 => ?_
    rw [h0, Nat.zero_mul] at htotal
    exact Nat.not_lt_zero g (htotal ▸ hg)
  refine ⟨g / (s.nBlocks.toNat / s.threads.toNat), ?_, Nat.div_mul_le_self _ _, ?_⟩
  · exact Nat.div_lt_of_lt_mul (htotal.symm ▸ hg)
  · exact Nat.lt_mul_of_div_lt (Nat.lt_succ_self _) hper

/-- `u` is `s` in the run of its lanes, and each lane is within its slice. -/
structure InSlices (s u : State) : Prop where
  frame : LaneFrame s u
  length : u.lanes.length = s.threads.toNat
  slice : ∀ k l, u.lanes[k]? = some l → l.start = k * perLane s ∧ l.count = perLane s ∧ l.next ≤ l.count

/-- The lane at an index after the step of lane `k`. -/
theorem lane_after_step {ls : List Lane} {k k' : Nat} {l' m : Lane} (h : (ls.set k l')[k']? = some m) :
    (k = k' ∧ l' = m) ∨ (k ≠ k' ∧ ls[k']? = some m) := by
  rw [List.getElem?_set] at h
  split_ifs at h with he hlt
  · exact .inl ⟨he, Option.some.inj h⟩
  · exact .inr ⟨he, h⟩

theorem eq_newLane_of_createLanes {s : State} {k : Nat} {l : Lane} (h : (createLanes s).lanes[k]? = some l) :
    l = newLane (perLane s) k := by
  rw [createLanes_getElem?] at h
  split_ifs at h
  exact (Option.some.inj h).symm

theorem createLanes_inSlices (s : State) : InSlices s (createLanes s) where
  frame := rfl
  length := by simp [createLanes]
  slice k l hk := by
    obtain rfl := eq_newLane_of_createLanes hk
    exact ⟨rfl, rfl, Nat.zero_le _⟩

/-- The steps of a `PARENC` are as many as the blocks (R182). -/
theorem lanesLeft_createLanes {s : State} (hdiv : s.nBlocks.toNat % s.threads.toNat = 0) :
    lanesLeft (createLanes s).lanes = numBlocks s := by
  have hconst : (createLanes s).lanes.map (fun l => l.count - l.next) =
      (List.range s.threads.toNat).map fun _ => perLane s := by simp [createLanes, newLane, Function.comp_def]
  rw [lanesLeft, hconst, List.map_const', List.sum_replicate, List.length_range, smul_eq_mul]
  exact Nat.mul_div_cancel' (Nat.dvd_of_mod_eq_zero hdiv)

section
variable {s u : State} {k : Nat} {l : Lane}

/-- The blocks of a lane are those of its slice. -/
theorem InSlices.block_inSlice (h : InSlices s u) (hk : u.lanes[k]? = some l) {j : Nat} (hj : j < l.count) :
    inSlice s k (l.start + j) := by
  obtain ⟨hstart, hcount, -⟩ := h.slice k l hk
  have hlt : k < u.lanes.length := (List.getElem?_eq_some_iff.mp hk).1
  rw [hcount] at hj
  refine ⟨h.length ▸ hlt, hstart ▸ Nat.le_add_right _ j, ?_⟩
  rw [hstart, Nat.succ_mul]
  exact Nat.add_lt_add_left hj _

theorem InSlices.step (h : InSlices s u) (c v : Bool) (hk : u.lanes[k]? = some l) (hlt : l.next < l.count) :
    InSlices s (nextStep c v k l u) where
  frame := h.frame.trans rfl
  length := List.length_set.trans h.length
  slice k' m hm := by
    obtain ⟨rfl, rfl⟩ | ⟨-, hold⟩ := lane_after_step hm
    · obtain ⟨hstart, hcount, -⟩ := h.slice k l hk
      exact ⟨hstart, hcount, hlt⟩
    · exact h.slice k' m hold

end

/-! Which blocks have been taken. -/

/-- Block `g` is one of those that a lane has done. -/
def BlockDone (u : State) (g : Nat) : Prop :=
  ∃ (k : Nat) (l : Lane), u.lanes[k]? = some l ∧ l.start ≤ g ∧ g < l.start + l.next

theorem not_blockDone_createLanes (s : State) (g : Nat) : ¬ BlockDone (createLanes s) g := by
  rintro ⟨k, l, hk, hlo, hhi⟩
  obtain rfl := eq_newLane_of_createLanes hk
  exact absurd hhi (Nat.not_lt.mpr hlo)

/-- A step takes the next block of its lane and no other. -/
theorem blockDone_nextStep {u : State} {k : Nat} {l : Lane} (c v : Bool) (hk : u.lanes[k]? = some l) (g : Nat) :
    BlockDone (nextStep c v k l u) g ↔ BlockDone u g ∨ g = l.start + l.next := by
  have hlt : k < u.lanes.length := (List.getElem?_eq_some_iff.mp hk).1
  constructor
  · rintro ⟨k', m, hm, hlo, hhi⟩
    obtain ⟨rfl, rfl⟩ | ⟨-, hold⟩ := lane_after_step hm
    · rcases Nat.lt_succ_iff_lt_or_eq.mp hhi with hdone | hnew
      · exact .inl ⟨k, l, hk, hlo, hdone⟩
      · exact .inr hnew
    · exact .inl ⟨k', m, hold, hlo, hhi⟩
  · have hnew : (nextStep c v k l u).lanes[k]? = some _ := List.getElem?_set_self hlt
    rintro (⟨k', m, hm, hlo, hhi⟩ | rfl)
    · by_cases he : k = k'
      · subst he
        obtain rfl : l = m := Option.some.inj (hk.symm.trans hm)
        exact ⟨k, _, hnew, hlo, hhi.trans (Nat.lt_succ_self _)⟩
      · exact ⟨k', m, (List.getElem?_set_ne he).trans hm, hlo, hhi⟩
    · exact ⟨k, _, hnew, Nat.le_add_right _ _, Nat.lt_succ_self _⟩

/-- The next block of a lane has not been taken: the slices are disjoint. -/
theorem InSlices.next_not_done {s u : State} {k : Nat} {l : Lane} (h : InSlices s u) (hk : u.lanes[k]? = some l)
    (hlt : l.next < l.count) : ¬ BlockDone u (l.start + l.next) := by
  rintro ⟨k', m, hm, hlo, hhi⟩
  obtain ⟨j, hj⟩ := Nat.exists_eq_add_of_le hlo
  obtain ⟨-, -, hnext⟩ := h.slice k' m hm
  have hj' : j < m.next := by omega
  obtain rfl : k = k' := inSlice_unique (h.block_inSlice hk hlt) (hj ▸ h.block_inSlice hm (hj'.trans_le hnext))
  obtain rfl : l = m := Option.some.inj (hk.symm.trans hm)
  omega

/-- When every lane is at its end every block has been taken. -/
theorem InSlices.all_done {s u : State} (h : InSlices s u) (hdiv : s.nBlocks.toNat % s.threads.toNat = 0)
    (hend : lanesLeft u.lanes = 0) {g : Nat} (hg : g < numBlocks s) : BlockDone u g := by
  obtain ⟨k, hk, hlo, hhi⟩ := exists_inSlice hdiv hg
  have hlen : k < u.lanes.length := h.length ▸ hk
  obtain ⟨hstart, hcount, -⟩ := h.slice k u.lanes[k] (List.getElem?_eq_getElem hlen)
  have hnext := (lanesLeft_eq_zero_iff _).mp hend u.lanes[k] (List.getElem_mem hlen)
  refine ⟨k, u.lanes[k], List.getElem?_eq_getElem hlen, hstart ▸ hlo, ?_⟩
  rw [hcount] at hnext
  rw [Nat.succ_mul] at hhi
  exact hhi.trans_le (hstart ▸ Nat.add_le_add_left hnext _)

end Sys2Proof.Machine
end

section
/-! PROOFS. What a `PARENC` does to memory (spec/45_parallel_partitioner.md R181, R185, R186): in every order of the
lanes the blocks done are encrypted and the others still hold their input. -/

namespace Sys2Proof.Machine

/-! The blocks of the two buffers. -/

/-- Two blocks of the output buffer do not meet. -/
theorem readBlock_outAddr_write (s : State) (m : Memory) {g g' : Nat} (hne : g' ≠ g) (y : Block) :
    Memory.readBlock (m.writeBlock (outAddr s g) y) (outAddr s g') = m.readBlock (outAddr s g') :=
  readBlock_writeBlock_other _ _ (by simp only [outAddr]; omega)

/-- A block of the output buffer meets no input block of another index: the buffers are one, or apart
(spec/20_memory.md R61). -/
theorem readBlock_inAddr_write {s : State} (hapart : ¬ buffersOverlap s) (m : Memory) {g g' : Nat}
    (hg : g < numBlocks s) (hg' : g' < numBlocks s) (hne : g' ≠ g) (y : Block) :
    Memory.readBlock (m.writeBlock (outAddr s g) y) (inAddr s g') = m.readBlock (inAddr s g') := by
  by_cases he : s.outBase = s.inBase
  · have haddr : inAddr s g' = outAddr s g' := by rw [inAddr, outAddr, he]
    rw [haddr, readBlock_outAddr_write s m hne]
  · simp only [buffersOverlap, ne_eq, he, not_false_eq_true, true_and] at hapart
    refine readBlock_writeBlock_other _ _ ?_
    simp only [inAddr, outAddr, numBlocks] at hg hg' ⊢
    omega

/-- Both paths of a lane are `EncryptBlock` (R186). -/
theorem laneCipher_eq_encryptBlock (v : Bool) : laneCipher v = encryptBlock := by
  cases v
  · exact encryptT_eq_encryptBlock
  · exact encryptV_eq_encryptBlock

/-! The run. -/

/-- What block `g` of the output buffer is to be (R185). -/
def encryptedBlock (c : Bool) (s : State) (g : Nat) : Block :=
  encryptBlock (s.mem.readBlock (inAddr s g)) (rkAt s) (bulkCounter c s s.regCtr g)

/-- `u` is `s` in the run of its lanes: the blocks done are encrypted, the others still hold their input. -/
structure EncryptedSoFar (c : Bool) (s u : State) : Prop where
  slices : InSlices s u
  memory : u.mem.wf = true
  done : ∀ g, BlockDone u g → u.mem.readBlock (outAddr s g) = encryptedBlock c s g
  pending : ∀ g, g < numBlocks s → ¬ BlockDone u g → u.mem.readBlock (inAddr s g) = s.mem.readBlock (inAddr s g)

/-- A lane step writes one block, made from its input block and the registers of the start, which no lane writes
(R187). -/
theorem nextStep_mem {s u : State} (h : LaneFrame s u) (c v : Bool) (k : Nat) (l : Lane) :
    (nextStep c v k l u).mem = u.mem.writeBlock (outAddr s (l.start + l.next))
      (encryptBlock (u.mem.readBlock (inAddr s (l.start + l.next))) (rkAt s)
        (bulkCounter c s s.regCtr (l.start + l.next))) := by
  rw [LaneFrame] at h
  rw [h, ← laneCipher_eq_encryptBlock v]
  rfl

theorem createLanes_encryptedSoFar (c : Bool) {s : State} (hm : s.mem.wf = true) :
    EncryptedSoFar c s (createLanes s) where
  slices := createLanes_inSlices s
  memory := hm
  done g hg := absurd hg (not_blockDone_createLanes s g)
  pending _ _ _ := rfl

/-- A lane step encrypts its block, from the input that it still holds. -/
theorem EncryptedSoFar.step {c : Bool} {s u : State} (h : EncryptedSoFar c s u) (hfit : buffersFit s)
    (hapart : ¬ buffersOverlap s) (v : Bool) {k : Nat} {l : Lane} (hk : u.lanes[k]? = some l)
    (hlt : l.next < l.count) : EncryptedSoFar c s (nextStep c v k l u) := by
  have hg : l.start + l.next < numBlocks s := inSlice_lt (h.slices.block_inSlice hk hlt)
  have hfresh : ¬ BlockDone u (l.start + l.next) := h.slices.next_not_done hk hlt
  have hmem : (nextStep c v k l u).mem =
      u.mem.writeBlock (outAddr s (l.start + l.next)) (encryptedBlock c s (l.start + l.next)) := by
    rw [nextStep_mem h.slices.frame, h.pending _ hg hfresh, encryptedBlock]
  have hend : outAddr s (l.start + l.next) + 16 ≤ 2 ^ 64 := by
    have hout := hfit.2
    simp only [outAddr, numBlocks] at hg ⊢
    omega
  refine ⟨h.slices.step c v hk hlt, hmem ▸ writeBlock_wf h.memory hend _, fun g hdone => ?_, fun g hlt' hnot => ?_⟩
  · rw [hmem]
    rcases (blockDone_nextStep c v hk g).mp hdone with hold | rfl
    · have hne : g ≠ l.start + l.next := fun he => hfresh (he ▸ hold)
      rw [readBlock_outAddr_write s _ hne, h.done g hold]
    · exact readBlock_writeBlock_same h.memory hend _
  · obtain ⟨hold, hne⟩ := not_or.mp (mt (blockDone_nextStep c v hk g).mpr hnot)
    rw [hmem, readBlock_inAddr_write hapart _ hg hlt' hne, h.pending g hlt' hold]

/-- A `PARENC` that runs encrypts its buffer (R185). -/
theorem parencRun_encryptsBuffer {c : Bool} (v : Bool) {s : State} (hm : s.mem.wf = true) (h : ParencAllowed c s) :
    EncryptsBuffer (bulkCounter c s s.regCtr) s (parencRun c v s) := by
  obtain ⟨hrun, hend⟩ := runLanes_keeps (c := c) (v := v) (fun hu hk hlt => hu.step h.fit h.apart v hk hlt)
    (lanesLeft_createLanes h.divisible) (createLanes_encryptedSoFar c hm)
  exact ⟨fun g hg => hrun.done g (hrun.slices.all_done h.divisible hend hg), (parencRun_output c v h.fit.2).others⟩

/-- Settles O49: the blocks done are encrypted and the others hold their input, and at the join all are done. -/
theorem parencEncryptsEveryBlock : Obligations.ParencEncryptsEveryBlock := by
  intro s c v hs hl h
  have hbuffer := parencRun_encryptsBuffer v hs.memory h
  refine ⟨_, exec_parenc_allowed v hl h, rfl, rfl, ?_, hbuffer.blocks, hbuffer.others⟩
  have hframe := parencRun_frame c v s
  rw [LaneFrame, parencRun_lanes, ← hs.bulk.1] at hframe
  exact congrArg respondZero hframe

/-- What is encrypted from the same buffer is the same memory. -/
theorem EncryptsBuffer.mem_unique {x : Nat → Option Block} {s t t' : State} (h : EncryptsBuffer x s t)
    (h' : EncryptsBuffer x s t') (hm : t.mem.wf = true) (hm' : t'.mem.wf = true) : t'.mem = t.mem := by
  refine eq_of_read hm' hm fun a => ?_
  by_cases ha : a < s.outBase.toNat ∨ s.outBase.toNat + 16 * s.nBlocks.toNat ≤ a
  · rw [h.others a ha, h'.others a ha]
  · obtain ⟨g, k, hg, hk, rfl⟩ : ∃ g k, g < s.nBlocks.toNat ∧ k < 16 ∧ a = outAddr s g + k :=
      ⟨(a - s.outBase.toNat) / 16, (a - s.outBase.toNat) % 16, by omega, by omega, by simp only [outAddr]; omega⟩
    rw [← byteAt_readBlock _ _ hk, ← byteAt_readBlock _ _ hk, h.blocks g hg, h'.blocks g hg]

/-- Settles O50: the order, the number of lanes and the path do not stand in what O49 says of memory. -/
theorem parencIgnoresScheduleAndPath : Obligations.ParencIgnoresScheduleAndPath := by
  intro s c v v' order n hs hl h hn
  have hn' : ParencAllowed c { s with sched := order, threads := n } := { hn with }
  have hbuffer := parencRun_encryptsBuffer v hs.memory h
  have hbuffer' := parencRun_encryptsBuffer v' (s := { s with sched := order, threads := n }) hs.memory hn'
  have hwf := parencRun_mem_wf c v h.fit.2 hs.memory
  have hwf' := parencRun_mem_wf c v' hn'.fit.2 hs.memory
  exact ⟨_, _, exec_parenc_allowed v hl h, exec_parenc_allowed v' hl hn',
    hbuffer.mem_unique ⟨hbuffer'.blocks, hbuffer'.others⟩ hwf hwf'⟩

end Sys2Proof.Machine
end

section
/-! PROOFS. What a `PARENC` records (spec/45_parallel_partitioner.md R177, R181, R182): each step one read and one write
of a block of the lane's own slice. -/

namespace Sys2Proof.Machine

/-- A host-memory event is that of a lane on a block of its own slice, at the address of this block (R181). -/
def Event.inOwnSlice (s : State) : Event → Prop
  | .memRead who a _ => ∃ k g, who = .lane k ∧ inSlice s k g ∧ a = inAddr s g
  | .memWrite who a _ => ∃ k g, who = .lane k ∧ inSlice s k g ∧ a = outAddr s g
  | .scheduleWrite _ | .devRead _ _ _ _ | .devWrite _ _ _ _ | .launch _ _ | .wait | .join => True

/-- `u` is `s` in the run of its lanes, which has recorded `es`: one read and one write for each block done. -/
structure RecordedSoFar (s u : State) (es : List Event) : Prop where
  slices : InSlices s u
  history : u.history = es ++ s.history
  events : ∀ e ∈ es, e.inOwnSlice s
  reads : (es.filter Event.isMemRead).length + lanesLeft u.lanes = numBlocks s
  writes : (es.filter Event.isMemWrite).length + lanesLeft u.lanes = numBlocks s

theorem createLanes_recordedSoFar {s : State} (hdiv : s.nBlocks.toNat % s.threads.toNat = 0) :
    RecordedSoFar s (createLanes s) [] :=
  ⟨createLanes_inSlices s, rfl, by simp, by simpa using lanesLeft_createLanes hdiv,
    by simpa using lanesLeft_createLanes hdiv⟩

/-- A lane step records its read and its write, newest first. -/
theorem nextStep_history {s u : State} (h : LaneFrame s u) (c v : Bool) (k : Nat) (l : Lane) :
    ∃ x y, (nextStep c v k l u).history =
      .memWrite (.lane k) (outAddr s (l.start + l.next)) y :: .memRead (.lane k) (inAddr s (l.start + l.next)) x ::
        u.history := by
  rw [LaneFrame] at h
  rw [h]
  exact ⟨_, _, rfl⟩

theorem RecordedSoFar.step {s u : State} {es : List Event} (h : RecordedSoFar s u es) (c v : Bool) {k : Nat}
    {l : Lane} (hk : u.lanes[k]? = some l) (hlt : l.next < l.count) :
    ∃ es', RecordedSoFar s (nextStep c v k l u) es' := by
  obtain ⟨x, y, hhistory⟩ := nextStep_history h.slices.frame c v k l
  have hslice := h.slices.block_inSlice hk hlt
  have hleft : lanesLeft (nextStep c v k l u).lanes + 1 = lanesLeft u.lanes := lanesLeft_set hk hlt _
  have hreads := h.reads
  have hwrites := h.writes
  refine ⟨.memWrite (.lane k) (outAddr s (l.start + l.next)) y ::
    .memRead (.lane k) (inAddr s (l.start + l.next)) x :: es, h.slices.step c v hk hlt, ?_, ?_, ?_, ?_⟩
  · rw [hhistory, h.history]
    rfl
  · simp only [List.forall_mem_cons]
    exact ⟨⟨k, _, rfl, hslice, rfl⟩, ⟨k, _, rfl, hslice, rfl⟩, h.events⟩
  · simp only [List.filter_cons, Event.isMemRead, if_true, Bool.false_eq_true, if_false, List.length_cons]
    omega
  · simp only [List.filter_cons, Event.isMemWrite, if_true, Bool.false_eq_true, if_false, List.length_cons]
    omega

/-- Settles O51: each lane step records one read and one write of the next block of its slice, and the steps are `N`. -/
theorem parencLanesKeepToTheirSlices : Obligations.ParencLanesKeepToTheirSlices := by
  intro s c v hl h
  obtain ⟨⟨es, hrun⟩, hend⟩ := runLanes_keeps (c := c) (v := v) (P := fun u => ∃ es, RecordedSoFar s u es)
    (fun ⟨_, hu⟩ hk hlt => hu.step c v hk hlt) (lanesLeft_createLanes h.divisible)
    ⟨[], createLanes_recordedSoFar h.divisible⟩
  have hreads := hrun.reads
  have hwrites := hrun.writes
  rw [hend, Nat.add_zero] at hreads hwrites
  exact ⟨_, .join :: es, exec_parenc_allowed v hl h, congrArg (List.cons Event.join) hrun.history,
    fun who a x => ⟨fun he => hrun.events _ (List.mem_of_ne_of_mem (by simp) he),
      fun he => hrun.events _ (List.mem_of_ne_of_mem (by simp) he)⟩, hreads, hwrites⟩

end Sys2Proof.Machine
end

section
/-! PROOFS. The tests of `GPUDISP`, one after the other (spec/46_gpu_batch_tiler.md R197). -/

namespace Sys2Proof.Machine

/-- Settles O52: test by test, each fails exactly when its line of R197 says. -/
theorem gpudispTestsInOrder : Obligations.GpudispTestsInOrder := by
  intro s c hl
  obtain ⟨t, ht⟩ : ∃ t, t = afterTests (fun s => respondZero (gpuRun c s)) s (gpuTests s) := ⟨_, rfl⟩
  refine ⟨t, by rw [ht, exec, execGpudisp, command_live hl]; rfl, ?_⟩
  refine ifFails_of_afterTests ht (by simp [ksValid]) fun ht => ?_
  refine ifFails_of_afterTests ht (decide_eq_true_iff.trans Nat.one_le_iff_ne_zero) fun ht => ?_
  refine ifFails_of_afterTests ht ((buffersInRange_iff_buffersFit s).trans not_not.symm) fun ht => ?_
  refine ifFails_of_afterTests ht (buffersApart_iff_not_buffersOverlap s) fun ht => ?_
  refine ifFails_of_afterTests ht (Bool.not_eq_false _).to_iff.symm fun ht => ?_
  refine ifFails_of_afterTests ht (Bool.not_eq_false _).to_iff.symm fun ht => ?_
  refine ifFails_of_afterTests ht (decide_eq_true_iff.trans Nat.one_le_iff_ne_zero) fun ht => ?_
  rw [ht]
  exact ⟨(gpuRun_fatal c s).trans hl, rfl⟩

/-- The structure `GpudispAllowed` is the list of the tests. -/
theorem GpudispAllowed.tests_hold {s : State} (h : GpudispAllowed s) : ∀ q ∈ gpuTests s, q.1 = true := by
  have hks : ksValid s = true := beq_iff_eq.mpr h.schedule
  have hfit := (buffersInRange_iff_buffersFit s).mpr h.fit
  have hapart := (buffersApart_iff_not_buffersOverlap s).mpr h.apart
  simp only [gpuTests, List.forall_mem_cons, decide_eq_true_eq]
  exact ⟨hks, h.size, hfit, hapart, h.device, h.kernel, h.ceiling, by simp⟩

/-- An allowed `GPUDISP` runs to its end. -/
theorem exec_gpudisp_allowed (c : Bool) {s : State} (hl : s.live) (h : GpudispAllowed s) :
    exec (.gpudisp c) s = .next (respondZero (gpuRun c s)) := by
  rw [exec, execGpudisp, command_live hl, checkAll, (firstFailure_none_iff _).mpr h.tests_hold]

end Sys2Proof.Machine
end

section
/-! PROOFS. What a `GPUDISP` does to memory (spec/46_gpu_batch_tiler.md R199 to R209): each tile encrypts the blocks
behind those of the tiles before it, and the tiles together are the buffer. -/

namespace Sys2Proof.Machine

/-! The device. -/

theorem devRead_devWrite_same {buf : List (Option Block)} {i : Nat} (hi : i < buf.length) (v : Block) :
    devRead (devWrite buf i v) i = v := by
  rw [devRead, devWrite, List.getElem?_set_self hi]

theorem devRead_devWrite_other (buf : List (Option Block)) {i j : Nat} (hne : i ≠ j) (v : Block) :
    devRead (devWrite buf i v) j = devRead buf j := by
  rw [devRead, devRead, devWrite, List.getElem?_set_ne hne]

/-- The device reads back the schedule of the set-up (R199). -/
theorem devRead_devKs (s : State) {r : Nat} (hr : r ≤ 10) : devRead (newTiler s).devKs r = rkAt s r := by
  have hlt : r < 11 := by omega
  simp [devRead, newTiler, hlt]

theorem onTiler_some {f : Tiler → State → State} {s : State} {q : Tiler} (hq : s.tiler = some q) :
    onTiler f s = f q s := by
  simp only [onTiler, hq]

/-- Eleven round keys are all that `EncryptBlock` reads (spec/44_block_cipher.md R161). -/
theorem encryptBlock_congr {k k' : Nat → Block} (h : ∀ r, r ≤ 10 → k r = k' r) (b : Block) (x : Option Block) :
    encryptBlock b k x = encryptBlock b k' x := by
  have hrounds : ∀ n, n ≤ 9 → ∀ b, roundsUp (fun r s => encRound mixColumns (k r) s) n b =
      roundsUp (fun r s => encRound mixColumns (k' r) s) n b := by
    intro n hn b
    induction n with
    | zero => rfl
    | succ n ih => rw [roundsUp, roundsUp, ih (by omega), h (n + 1) (by omega)]
  rw [encryptBlock, encryptBlock, encryptWith, encryptWith, h 0 (by omega), h 10 (by omega), hrounds 9 (le_refl 9)]

/-! The tiler works on the buffers and the parameters of its start. -/

section
variable {s u : State}

theorem TilerFrame.inAddr_eq (h : TilerFrame s u) (g : Nat) : inAddr u g = inAddr s g := by
  rw [TilerFrame] at h
  rw [h]
  rfl

theorem TilerFrame.outAddr_eq (h : TilerFrame s u) (g : Nat) : outAddr u g = outAddr s g := by
  rw [outAddr, h.outBase_eq, outAddr]

theorem TilerFrame.numBlocks_eq (h : TilerFrame s u) : numBlocks u = numBlocks s := congrArg BitVec.toNat h.nBlocks_eq

theorem TilerFrame.gpuCounter_eq (h : TilerFrame s u) (c : Bool) (g : Nat) : gpuCounter c u g = gpuCounter c s g := by
  rw [TilerFrame] at h
  rw [h]
  rfl

end

/-! One tile up to its read-back. -/

/-- The host-to-device write of the first `n` blocks of a tile (R201). -/
theorem loadBlocks_tiler {u : State} {q : Tiler} (hq : u.tiler = some q) {n : Nat} (hn : n ≤ q.devIn.length) :
    ∃ d, (forUpTo loadBlock n u).tiler = some { q with devIn := d } ∧ d.length = q.devIn.length ∧
      ∀ i, i < n → devRead d i = u.mem.readBlock (inAddr u (q.offset + i)) := by
  induction n with
  | zero => exact ⟨q.devIn, hq, rfl, fun i hi => absurd hi (Nat.not_lt_zero i)⟩
  | succ n ih =>
    obtain ⟨d, htiler, hlen, hd⟩ := ih (by omega)
    have hkept : TileKept u (forUpTo loadBlock n u) :=
      forUpTo_keeps (P := TileKept u) (fun i v h => h.trans (loadBlock_kept i v)) n (.refl u)
    refine ⟨devWrite d n (u.mem.readBlock (inAddr u (q.offset + n))), ?_, List.length_set.trans hlen, fun i hi => ?_⟩
    · rw [forUpTo, loadBlock, onTiler_some htiler, hkept.memory, hkept.frame.inAddr_eq]
      rfl
    · rcases Nat.lt_succ_iff_lt_or_eq.mp hi with hlt | rfl
      · rw [devRead_devWrite_other d (by omega), hd i hlt]
      · exact devRead_devWrite_same (by omega) _

/-- What work-item `i` leaves in `DEV_OUT` (R203). -/
def itemResult (c : Bool) (u : State) (q : Tiler) (i : Nat) : Block :=
  encryptBlock (devRead q.devIn i) (devRead q.devKs) (gpuCounter c u (q.argOffset + i))

/-- The tiler `q` of `u` after the step of work-item `i`. -/
def itemDone (c : Bool) (u : State) (i : Nat) (q : Tiler) : Tiler :=
  { q with
    devOut := devWrite q.devOut i (itemResult c u q i)
    itemBlk := q.itemBlk.set i (some (itemResult c u q i))
    waiting := q.waiting.erase i }

/-- A choice used up and the step of work-item `i`. -/
def nextItem (c : Bool) (i : Nat) (u : State) : State := workItem c i { u with sched := u.sched.tail }

theorem nextItem_tiler (c : Bool) (i : Nat) {u : State} {q : Tiler} (hq : u.tiler = some q) :
    (nextItem c i u).tiler = some (itemDone c u i q) := by
  have hsched : State.tiler { u with sched := u.sched.tail } = some q := hq
  rw [nextItem, workItem, onTiler_some hsched]
  rfl

theorem nextItem_frame (c : Bool) (i : Nat) (u : State) : TilerFrame u (nextItem c i u) :=
  have hsched : TilerFrame u { u with sched := u.sched.tail } := rfl
  hsched.trans (workItem_frame c i _)

/-- The step of one work-item does not change what another is to leave. -/
theorem itemResult_nextItem (c : Bool) (i j : Nat) (u : State) (q : Tiler) :
    itemResult c (nextItem c i u) (itemDone c u i q) j = itemResult c u q j := by
  rw [itemResult, (nextItem_frame c i u).gpuCounter_eq]
  rfl

/-- As many steps as work-items wait let each of them leave its result, in whatever order (R203). -/
theorem runItems_tiler (c : Bool) {n : Nat} {u : State} {q : Tiler} (hq : u.tiler = some q) (hn : q.waiting.length = n)
    (hfit : ∀ i ∈ q.waiting, i < q.devOut.length) :
    ∃ o b w, (runItems c n u).tiler = some { q with devOut := o, itemBlk := b, waiting := w } ∧
      o.length = q.devOut.length ∧
      ∀ j, (j ∈ q.waiting → devRead o j = itemResult c u q j) ∧ (j ∉ q.waiting → devRead o j = devRead q.devOut j) := by
  induction n generalizing u q with
  | zero =>
    have hnone : q.waiting = [] := List.eq_nil_of_length_eq_zero hn
    exact ⟨q.devOut, q.itemBlk, q.waiting, hq, rfl, fun j => ⟨fun hj => by simp [hnone] at hj, fun _ => rfl⟩⟩
  | succ n ih =>
    have hwaiting : waitingItems u = q.waiting := by simp only [waitingItems, hq]
    rw [runItems, hwaiting]
    cases hp : pick u.sched q.waiting with
    | none => simp [pick_eq_none_iff.mp hp] at hn
    | some i =>
      have hi : i ∈ q.waiting := pick_mem hp
      have hlen : (itemDone c u i q).waiting.length = n := by
        rw [itemDone, List.length_erase_of_mem hi, hn, Nat.add_sub_cancel]
      obtain ⟨o, b, w, htiler, holen, hout⟩ := ih (nextItem_tiler c i hq) hlen fun j hj =>
        (hfit j (List.mem_of_mem_erase hj)).trans_eq List.length_set.symm
      refine ⟨o, b, w, htiler, holen.trans List.length_set, fun j => ?_⟩
      obtain ⟨hrun, hrest⟩ := hout j
      by_cases he : j ∈ q.waiting.erase i
      · exact ⟨fun _ => (hrun he).trans (itemResult_nextItem c i j u q),
          fun hno => absurd (List.mem_of_mem_erase he) hno⟩
      · by_cases hij : i = j
        · subst hij
          exact ⟨fun _ => (hrest he).trans (devRead_devWrite_same (hfit i hi) _), fun hno => absurd hi hno⟩
        · have hno : j ∉ q.waiting := fun hj => he ((List.mem_erase_of_ne (Ne.symm hij)).mpr hj)
          exact ⟨fun hj => absurd hj hno, fun _ => (hrest he).trans (devRead_devWrite_other _ hij _)⟩

/-- After the wait every work-item of the launch has left its result (R203, R204). -/
theorem runKernel_tiler (c : Bool) {u : State} {q : Tiler} (hq : u.tiler = some q) (hout : q.tile ≤ q.devOut.length) :
    ∃ o b w, (runKernel c u).tiler = some { q with devOut := o, itemBlk := b, waiting := w } ∧
      o.length = q.devOut.length ∧ ∀ i, i < q.tile → devRead o i = itemResult c u q i := by
  have hlaunch : (launchKernel u).tiler =
      some { q with itemBlk := List.replicate q.tile none, waiting := List.range q.tile } := by
    rw [launchKernel, onTiler_some hq]
    rfl
  obtain ⟨o, b, w, htiler, hlen, hitems⟩ := runItems_tiler c hlaunch List.length_range
    fun i hi => (List.mem_range.mp hi).trans_le hout
  refine ⟨o, b, w, ?_, hlen, fun i hi => ?_⟩
  · rw [runKernel, onTiler_some hlaunch, ← htiler]
    rfl
  · rw [(hitems i).1 (List.mem_range.mpr hi), itemResult, (launchKernel_frame u).gpuCounter_eq, itemResult]

/-- A tile up to its read-back (R201 to R204). -/
def computeTile (c : Bool) (s : State) : State := runKernel c (setArgOffset (loadTile (startTile s)))

theorem oneTile_eq (c : Bool) (s : State) : oneTile c s = advanceTile (readBack (computeTile c s)) := rfl

/-- `q'` is the tiler `q` of `u` after a tile up to its read-back: the output buffer of the device holds the blocks of
the tile, encrypted. -/
structure TileComputed (c : Bool) (u : State) (q q' : Tiler) : Prop where
  tile : q'.tile = q.tile
  offset : q'.offset = q.offset
  tiles : q'.tiles = q.tiles
  cnt : q'.cnt = min q.tile (numBlocks u - q.offset)
  devKs : q'.devKs = q.devKs
  inLength : q'.devIn.length = q.devIn.length
  outLength : q'.devOut.length = q.devOut.length
  results : ∀ i, i < q'.cnt → devRead q'.devOut i =
    encryptBlock (u.mem.readBlock (inAddr u (q.offset + i))) (devRead q.devKs) (gpuCounter c u (q.offset + i))

theorem computeTile_frame (c : Bool) (u : State) : TilerFrame u (computeTile c u) :=
  (startTile_frame u).trans ((loadTile_frame _).trans ((setArgOffset_frame _).trans (runKernel_frame c _)))

theorem computeTile_mem (c : Bool) (u : State) : (computeTile c u).mem = u.mem :=
  ((loadTile_kept _).trans ((setArgOffset_kept _).trans (runKernel_kept c _))).memory.trans (startTile_mem u)

theorem computeTile_tiler (c : Bool) {u : State} {q : Tiler} (hq : u.tiler = some q) (hin : q.tile ≤ q.devIn.length)
    (hout : q.tile ≤ q.devOut.length) : ∃ q', (computeTile c u).tiler = some q' ∧ TileComputed c u q q' := by
  have hstart : (startTile u).tiler = some { q with cnt := min q.tile (numBlocks u - q.offset) } := by
    rw [startTile, onTiler_some hq]
  obtain ⟨d, hload, hdlen, hd⟩ := loadBlocks_tiler hstart ((Nat.min_le_left _ _).trans hin)
  have harg : (setArgOffset (loadTile (startTile u))).tiler = some
      { q with cnt := min q.tile (numBlocks u - q.offset), devIn := d, argOffset := q.offset } := by
    rw [loadTile, onTiler_some hstart, setArgOffset, onTiler_some hload]
  obtain ⟨o, b, w, hrun, holen, hitems⟩ := runKernel_tiler c harg hout
  have hframe : TilerFrame u (setArgOffset (loadTile (startTile u))) :=
    (startTile_frame u).trans ((loadTile_frame _).trans (setArgOffset_frame _))
  refine ⟨_, hrun, rfl, rfl, rfl, rfl, rfl, hdlen, holen, fun i hi => ?_⟩
  rw [hitems i (hi.trans_le (Nat.min_le_left _ _)), itemResult, hd i hi, startTile_mem,
    (startTile_frame u).inAddr_eq, hframe.gpuCounter_eq]

/-! The blocks encrypted. -/

/-- What block `g` of the output buffer is to be (R208). -/
def dispatchedBlock (c : Bool) (s : State) (g : Nat) : Block :=
  encryptBlock (s.mem.readBlock (inAddr s g)) (rkAt s) (bulkCounter c s 0#128 g)

/-- In the memory `m` the first `k` blocks are encrypted, the others still hold their input. -/
structure EncryptedUpTo (c : Bool) (s : State) (k : Nat) (m : Memory) : Prop where
  memory : m.wf = true
  done : ∀ g, g < k → m.readBlock (outAddr s g) = dispatchedBlock c s g
  pending : ∀ g, k ≤ g → g < numBlocks s → m.readBlock (inAddr s g) = s.mem.readBlock (inAddr s g)

theorem EncryptedUpTo.write {c : Bool} {s : State} {k : Nat} {m : Memory} (h : EncryptedUpTo c s k m)
    (hfit : buffersFit s) (hapart : ¬ buffersOverlap s) (hk : k < numBlocks s) :
    EncryptedUpTo c s (k + 1) (m.writeBlock (outAddr s k) (dispatchedBlock c s k)) := by
  have hend : outAddr s k + 16 ≤ 2 ^ 64 := by
    have hout := hfit.2
    simp only [outAddr, numBlocks] at hk ⊢
    omega
  refine ⟨writeBlock_wf h.memory hend _, fun g hg => ?_, fun g hg hlt => ?_⟩
  · rcases Nat.lt_succ_iff_lt_or_eq.mp hg with hold | rfl
    · rw [readBlock_outAddr_write s m (by omega), h.done g hold]
    · exact readBlock_writeBlock_same h.memory hend _
  · rw [readBlock_inAddr_write hapart m hk hlt (by omega), h.pending g (by omega) hlt]

/-- The read-back of the first `n` blocks of a tile (R205). -/
theorem readBackBlocks_encrypted {c : Bool} {s w : State} {q : Tiler} (hframe : TilerFrame s w)
    (hq : w.tiler = some q) (hfit : buffersFit s) (hapart : ¬ buffersOverlap s)
    (hres : ∀ i, i < q.cnt → devRead q.devOut i = dispatchedBlock c s (q.offset + i))
    (hend : q.offset + q.cnt ≤ numBlocks s) (h : EncryptedUpTo c s q.offset w.mem) {n : Nat} (hn : n ≤ q.cnt) :
    (forUpTo readBackBlock n w).tiler = some q ∧
      EncryptedUpTo c s (q.offset + n) (forUpTo readBackBlock n w).mem := by
  induction n with
  | zero => exact ⟨hq, h⟩
  | succ n ih =>
    obtain ⟨htiler, hdone⟩ := ih (by omega)
    refine ⟨(readBackBlock_tiler n _).trans htiler, ?_⟩
    rw [forUpTo, readBackBlock_mem n htiler, hres n hn,
      (hframe.trans (forUpTo_frame readBackBlock_frame n w)).outAddr_eq]
    exact hdone.write hfit hapart (by omega)

/-! The tiles. -/

/-- `u` is `s` in the run of its tiles, with the tiler `q`: `OFFSET` and `TILES` agree, and the blocks below `OFFSET`
are encrypted. -/
structure DispatchedSoFar (c : Bool) (s u : State) (q : Tiler) : Prop where
  frame : TilerFrame s u
  tiler : u.tiler = some q
  tile : q.tile = tileSize s
  inLength : q.devIn.length = tileSize s
  outLength : q.devOut.length = tileSize s
  schedule : ∀ r, r ≤ 10 → devRead q.devKs r = rkAt s r
  offset : q.offset = min (numBlocks s) (q.tiles * tileSize s)
  tiles : q.tiles * tileSize s < numBlocks s + tileSize s
  blocks : EncryptedUpTo c s q.offset u.mem

/-- `TILE` is at least one block (R199). -/
theorem GpudispAllowed.tileSize_pos {s : State} (h : GpudispAllowed s) : 0 < tileSize s := by
  have hsize := h.size
  have hceil := h.ceiling
  simp only [tileSize, numBlocks]
  omega

/-- No more tiles than blocks cover the buffer. -/
theorem GpudispAllowed.tiles_le {s : State} (h : GpudispAllowed s) :
    (numBlocks s + tileSize s - 1) / tileSize s ≤ numBlocks s := by
  have hpos := h.tileSize_pos
  have hle : numBlocks s ≤ tileSize s * numBlocks s := Nat.le_mul_of_pos_left _ hpos
  refine Nat.le_of_lt_succ (Nat.div_lt_of_lt_mul ?_)
  rw [Nat.mul_succ]
  omega

/-- At the set-up no tile is done and every block holds its input (R199). -/
theorem tilerSetUp_dispatchedSoFar (c : Bool) {s : State} (h : GpudispAllowed s) (hm : s.mem.wf = true) :
    DispatchedSoFar c s (tilerSetUp s) (newTiler s) where
  frame := tilerSetUp_frame s
  tiler := rfl
  tile := rfl
  inLength := List.length_replicate
  outLength := List.length_replicate
  schedule _ hr := devRead_devKs s hr
  offset := by simp [newTiler]
  tiles := by
    have hpos := h.tileSize_pos
    simp only [newTiler]
    omega
  blocks := ⟨hm, fun g hg => absurd hg (Nat.not_lt_zero g), fun _ _ _ => rfl⟩

/-- `CNT` is what the ceiling and the end of the buffer leave (R201). -/
theorem DispatchedSoFar.cnt_eq {c : Bool} {s u : State} {q p : Tiler} (h : DispatchedSoFar c s u q)
    (hcomputed : TileComputed c u q p) : p.cnt = min (tileSize s) (numBlocks s - q.offset) := by
  rw [hcomputed.cnt, h.tile, h.frame.numBlocks_eq]

/-- A tile encrypts the blocks from `OFFSET` on, from the input that they still hold (R201 to R205). -/
theorem DispatchedSoFar.after_readBack {c : Bool} {s u : State} {q p : Tiler} (h : DispatchedSoFar c s u q)
    (hs : GpudispAllowed s) (hp : (computeTile c u).tiler = some p) (hcomputed : TileComputed c u q p) :
    (readBack (computeTile c u)).tiler = some p ∧
      EncryptedUpTo c s (p.offset + p.cnt) (readBack (computeTile c u)).mem := by
  have hcnt := h.cnt_eq hcomputed
  have hoffset := hcomputed.offset
  have hle : q.offset ≤ numBlocks s := h.offset.trans_le (Nat.min_le_left _ _)
  have hres : ∀ i, i < p.cnt → devRead p.devOut i = dispatchedBlock c s (p.offset + i) := fun i hi => by
    rw [hcomputed.results i hi, encryptBlock_congr h.schedule, h.frame.inAddr_eq, h.frame.gpuCounter_eq,
      h.blocks.pending _ (Nat.le_add_right _ i) (by omega), hoffset]
    rfl
  have hstart : EncryptedUpTo c s p.offset (computeTile c u).mem := by
    rw [computeTile_mem, hoffset]
    exact h.blocks
  rw [readBack, onTiler_some hp]
  exact readBackBlocks_encrypted (h.frame.trans (computeTile_frame c u)) hp hs.fit hs.apart hres (by omega) hstart
    (le_refl p.cnt)

/-- A tile moves `OFFSET` to the end of its blocks and counts one more tile (R205). -/
theorem DispatchedSoFar.after_oneTile {c : Bool} {s u : State} {q : Tiler} (h : DispatchedSoFar c s u q)
    (hs : GpudispAllowed s) (hlt : q.offset < numBlocks s) :
    ∃ q', DispatchedSoFar c s (oneTile c u) q' ∧ q.offset < q'.offset := by
  obtain ⟨p, hp, hcomputed⟩ :=
    computeTile_tiler c h.tiler (h.tile.trans h.inLength.symm).le (h.tile.trans h.outLength.symm).le
  obtain ⟨htiler, hdone⟩ := h.after_readBack hs hp hcomputed
  have hmul : (q.tiles + 1) * tileSize s = q.tiles * tileSize s + tileSize s := Nat.succ_mul _ _
  have hpos := hs.tileSize_pos
  have hq := h.offset
  have hcnt := h.cnt_eq hcomputed
  have hoffset := hcomputed.offset
  refine ⟨{ p with offset := p.offset + p.cnt, tiles := p.tiles + 1 },
    { frame := h.frame.trans (oneTile_frame c u)
      tiler := by rw [oneTile_eq, advanceTile, onTiler_some htiler]
      tile := hcomputed.tile.trans h.tile
      inLength := hcomputed.inLength.trans h.inLength
      outLength := hcomputed.outLength.trans h.outLength
      schedule := fun r hr => (congrArg (devRead · r) hcomputed.devKs).trans (h.schedule r hr)
      offset := ?_
      tiles := ?_
      blocks := by
        rw [oneTile_eq, advanceTile_mem]
        exact hdone }, ?_⟩
  · simp only [hcomputed.tiles, hmul]
    omega
  · simp only [hcomputed.tiles, hmul]
    omega
  · simp only
    omega

/-- Enough tiles reach the end of the buffer (R206). -/
theorem DispatchedSoFar.after_runTiles {c : Bool} {s : State} (hs : GpudispAllowed s) {n : Nat} {u : State} {q : Tiler}
    (h : DispatchedSoFar c s u q) (hn : numBlocks s - q.offset ≤ n) :
    ∃ q', DispatchedSoFar c s (runTiles c n u) q' ∧ q'.offset = numBlocks s := by
  have hle : q.offset ≤ numBlocks s := h.offset.trans_le (Nat.min_le_left _ _)
  induction n generalizing u q with
  | zero => exact ⟨q, h, by omega⟩
  | succ n ih =>
    have hleft : tilesLeft u = decide (q.offset < numBlocks s) := by
      simp only [tilesLeft, h.tiler, h.frame.numBlocks_eq]
    rw [runTiles, hleft]
    split_ifs with hlt
    · obtain ⟨q', h', hadvance⟩ := h.after_oneTile hs (of_decide_eq_true hlt)
      exact ih h' (by omega) (h'.offset.trans_le (Nat.min_le_left _ _))
    · exact ⟨q, h, le_antisymm hle (Nat.le_of_not_lt fun hc => hlt (decide_eq_true hc))⟩

/-- `TILES` is the number of tiles that cover the buffer (R206). -/
theorem DispatchedSoFar.tiles_eq {c : Bool} {s u : State} {q : Tiler} (h : DispatchedSoFar c s u q)
    (hs : GpudispAllowed s) (hend : q.offset = numBlocks s) :
    q.tiles = (numBlocks s + tileSize s - 1) / tileSize s := by
  have hoffset := h.offset
  have htiles := h.tiles
  have hpos := hs.tileSize_pos
  refine (Nat.div_eq_of_lt_le ?_ ?_).symm
  · omega
  · rw [Nat.succ_mul]
    omega

/-- A `GPUDISP` that runs encrypts its buffer and leaves its progress (R206, R208). -/
theorem gpuRun_dispatches (c : Bool) {s : State} (hm : s.mem.wf = true) (hs : GpudispAllowed s) :
    EncryptedUpTo c s (numBlocks s) (gpuRun c s).mem ∧ (gpuRun c s).gpuOffset = BitVec.ofNat 64 (numBlocks s) ∧
      (gpuRun c s).gpuTile = BitVec.ofNat 64 (tileSize s) ∧
      (gpuRun c s).gpuTiles = BitVec.ofNat 64 ((numBlocks s + tileSize s - 1) / tileSize s) := by
  obtain ⟨q, h, hend⟩ := (tilerSetUp_dispatchedSoFar c hs hm).after_runTiles hs (Nat.sub_le _ _)
  refine ⟨?_, ?_, ?_, ?_⟩
  · have hblocks := h.blocks
    rw [hend] at hblocks
    rw [gpuRun, tilerFinish_mem]
    exact hblocks
  · rw [gpuRun, tilerFinish, onTiler_some h.tiler, hend]
  · rw [gpuRun, tilerFinish, onTiler_some h.tiler, h.tile]
  · rw [gpuRun, tilerFinish, onTiler_some h.tiler, h.tiles_eq hs hend]

/-- Settles O53: the blocks below `OFFSET` are encrypted after every tile, and the last tile ends at `N`. -/
theorem gpudispEncryptsEveryBlock : Obligations.GpudispEncryptsEveryBlock := by
  intro s c hs hl h
  obtain ⟨hblocks, hoffset, htile, htiles⟩ := gpuRun_dispatches c hs.memory h
  have hN : numBlocks s < 2 ^ 64 := s.nBlocks.isLt
  have htileN : (gpuRun c s).gpuTile.toNat = tileSize s := by
    have hle : tileSize s ≤ numBlocks s := Nat.min_le_left _ _
    rw [htile, BitVec.toNat_ofNat, Nat.mod_eq_of_lt (hle.trans_lt hN)]
  have htilesN : (gpuRun c s).gpuTiles.toNat = (numBlocks s + tileSize s - 1) / tileSize s := by
    rw [htiles, BitVec.toNat_ofNat, Nat.mod_eq_of_lt (h.tiles_le.trans_lt hN)]
  refine ⟨_, exec_gpudisp_allowed c hl h, rfl, rfl, ?_, ?_, htileN, ?_, hblocks.done, fun _ => gpuRun_others c⟩
  · have hframe := gpuRun_frame c s
    rw [gpuRun_tiler, ← hs.bulk.2] at hframe
    exact congrArg respondZero hframe
  · rw [respondZero_gpuOffset, hoffset, numBlocks, BitVec.ofNat_toNat, BitVec.setWidth_eq]
  · rw [respondZero_gpuTiles, respondZero_gpuTile, htileN]
    exact htilesN

end Sys2Proof.Machine
end

section
/-! PROOFS. What the tiles of a `GPUDISP` leave alone: no tile writes the schedule to the device again
(spec/46_gpu_batch_tiler.md R199, R211), and none reads the counter register (R209). -/

namespace Sys2Proof.Machine

/-- The state with counter `x` and valid bit `b`. -/
def withCounter (x : Block) (b : Bool) (s : State) : State := { s with regCtr := x, ctrV := b }

/-- An operation of the tiler after its set-up: it records no write of the schedule, and does the same whatever the
counter register holds. -/
structure TileOp (f : State → State) : Prop where
  events : ∀ s, ∃ es, (f s).history = es ++ s.history ∧ es.filter Event.isScheduleWrite = []
  counter : ∀ x b s, f (withCounter x b s) = withCounter x b (f s)

namespace TileOp

variable {f g : State → State}

theorem id : TileOp fun s => s := ⟨fun _ => ⟨[], rfl, rfl⟩, fun _ _ _ => rfl⟩

theorem comp (hf : TileOp f) (hg : TileOp g) : TileOp fun s => f (g s) where
  events s := by
    obtain ⟨es, hes, hno⟩ := hg.events s
    obtain ⟨es', hes', hno'⟩ := hf.events (g s)
    exact ⟨es' ++ es, by rw [hes', hes, List.append_assoc], by rw [List.filter_append, hno', hno, List.append_nil]⟩
  counter x b s := (congrArg f (hg.counter x b s)).trans (hf.counter x b (g s))

/-- An operation done when a test holds that does not read the counter register. -/
theorem of_ite {p : State → Bool} (hp : ∀ x b s, p (withCounter x b s) = p s) (hf : TileOp f) :
    TileOp fun s => if p s then f s else s where
  events s := by
    split_ifs
    · exact hf.events s
    · exact id.events s
  counter x b s := by
    rw [hp]
    split_ifs
    · exact hf.counter x b s
    · rfl

/-- An operation on a part of the state, when there is one, that is not the counter register. -/
theorem of_elim {α : Type} {part : State → Option α} {k : α → State → State}
    (hf : ∀ s, f s = (part s).elim s fun a => k a s) (hp : ∀ x b s, part (withCounter x b s) = part s)
    (hk : ∀ a, TileOp (k a)) : TileOp f where
  events s := by
    rw [hf]
    cases part s with
    | none => exact id.events s
    | some a => exact (hk a).events s
  counter x b s := by
    rw [hf, hf, hp]
    cases part s with
    | none => rfl
    | some a => exact (hk a).counter x b s

theorem of_onTiler {f : Tiler → State → State} (hf : ∀ q, TileOp (f q)) : TileOp (onTiler f) :=
  of_elim (part := State.tiler) (fun s => by unfold onTiler; cases s.tiler <;> rfl) (fun _ _ _ => rfl) hf

theorem of_forUpTo {f : Nat → State → State} (hf : ∀ i, TileOp (f i)) (n : Nat) : TileOp (forUpTo f n) := by
  induction n with
  | zero => exact id
  | succ n ih => exact (hf n).comp ih

theorem of_startTile : TileOp startTile := of_onTiler fun _ => ⟨fun _ => ⟨[], rfl, rfl⟩, fun _ _ _ => rfl⟩

theorem of_loadTile : TileOp loadTile :=
  of_onTiler fun q => of_forUpTo
    (fun _ => of_onTiler fun _ => ⟨fun _ => ⟨[_, _], rfl, rfl⟩, fun _ _ _ => rfl⟩) q.cnt

theorem of_setArgOffset : TileOp setArgOffset := of_onTiler fun _ => ⟨fun _ => ⟨[], rfl, rfl⟩, fun _ _ _ => rfl⟩

theorem of_launchKernel : TileOp launchKernel := of_onTiler fun _ => ⟨fun _ => ⟨[_], rfl, rfl⟩, fun _ _ _ => rfl⟩

/-- The counter of a work-item comes from the all-zero base (R203). -/
theorem of_nextItem (c : Bool) (i : Nat) : TileOp (nextItem c i) :=
  have hitem : TileOp (workItem c i) := of_onTiler fun _ => ⟨fun _ => ⟨[_, _], rfl, rfl⟩, fun _ _ _ => rfl⟩
  hitem.comp ⟨fun _ => ⟨[], rfl, rfl⟩, fun _ _ _ => rfl⟩

theorem of_runItems (c : Bool) (n : Nat) : TileOp (runItems c n) := by
  induction n with
  | zero => exact id
  | succ n ih =>
    refine of_elim (part := fun s => pick s.sched (waitingItems s)) (fun s => ?_) (fun _ _ _ => rfl)
      fun i => ih.comp (of_nextItem c i)
    rw [runItems]
    cases pick s.sched (waitingItems s) <;> rfl

theorem of_runKernel (c : Bool) : TileOp (runKernel c) :=
  have hwait : TileOp (record [.wait]) := ⟨fun _ => ⟨[_], rfl, rfl⟩, fun _ _ _ => rfl⟩
  (of_onTiler fun q => hwait.comp (of_runItems c q.tile)).comp of_launchKernel

theorem of_readBackBlock (i : Nat) : TileOp (readBackBlock i) :=
  have hwrite (x : Block) (b : Bool) (s : State) (m : Memory) (es : List Event) :
      record es { withCounter x b s with mem := m } = withCounter x b (record es { s with mem := m }) := rfl
  of_onTiler fun _ => ⟨fun _ => ⟨[_, _], rfl, rfl⟩, fun x b s => hwrite x b s _ _⟩

theorem of_readBack : TileOp readBack := of_onTiler fun q => of_forUpTo of_readBackBlock q.cnt

theorem of_advanceTile : TileOp advanceTile := of_onTiler fun _ => ⟨fun _ => ⟨[], rfl, rfl⟩, fun _ _ _ => rfl⟩

theorem of_oneTile (c : Bool) : TileOp (oneTile c) :=
  of_advanceTile.comp (of_readBack.comp ((of_runKernel c).comp
    (of_setArgOffset.comp (of_loadTile.comp of_startTile))))

theorem of_runTiles (c : Bool) (n : Nat) : TileOp (runTiles c n) := by
  induction n with
  | zero => exact id
  | succ n ih => exact of_ite (p := tilesLeft) (fun _ _ _ => rfl) (ih.comp (of_oneTile c))

theorem of_tilerFinish : TileOp tilerFinish := of_onTiler fun _ => ⟨fun _ => ⟨[], rfl, rfl⟩, fun _ _ _ => rfl⟩

/-- What a `GPUDISP` does after its set-up. -/
theorem of_gpuRun (c : Bool) (n : Nat) : TileOp fun s => tilerFinish (runTiles c n s) :=
  of_tilerFinish.comp (of_runTiles c n)

end TileOp

/-- A `GPUDISP` that runs does the same whatever the counter register holds: its set-up does not read it either. -/
theorem gpuRun_withCounter (c : Bool) (x : Block) (b : Bool) (s : State) :
    gpuRun c (withCounter x b s) = withCounter x b (gpuRun c s) :=
  (TileOp.of_gpuRun c (numBlocks s)).counter x b (tilerSetUp s)

/-- Settles O54: neither the tests nor the run read the counter register. -/
theorem gpudispIgnoresTheCounterRegister : Obligations.GpudispIgnoresTheCounterRegister := by
  intro s t c x b h
  change exec (.gpudisp c) (withCounter x b s) = .next (withCounter x b t)
  rcases command_next h with ⟨hf, rfl⟩ | ⟨hl, rfl⟩
  · exact exec_fatal hf (by simp) (by simp)
  · have htests : gpuTests (withCounter x b s) = gpuTests s := rfl
    have hlive : (withCounter x b s).live := hl
    rw [exec, execGpudisp, command_live hlive, checkAll, checkAll, htests]
    split
    · rfl
    · rw [gpuRun_withCounter]
      rfl

/-- Settles O55: the set-up records the write of `RK`, and no operation after it records another. -/
theorem scheduleIsWrittenToTheDeviceOnce : Obligations.ScheduleIsWrittenToTheDeviceOnce := by
  intro s c hl h
  obtain ⟨es, hes, hno⟩ := (TileOp.of_gpuRun c (numBlocks s)).events (tilerSetUp s)
  refine ⟨_, es ++ [.scheduleWrite s.rk], exec_gpudisp_allowed c hl h, ?_, ?_⟩
  · rw [List.append_assoc]
    exact hes
  · rw [List.filter_append, hno]
    rfl

end Sys2Proof.Machine
end

section
/-! PROOFS. The host's own commands (spec/47_host_commands.md R215 to R224): what each leaves on a live core, and the
operand fields that make its word illegal. -/

namespace Sys2Proof.Machine

/-! Illegal words (spec/30_encoding.md R83). -/

/-- A command without operands leaves no room in its word. -/
theorem illegalOperands_formatZ {op : Byte} (hop : op.toNat ∈ opcodesZ) {s : State} (hl : s.live) :
    illegalOperands op (· ≠ 0) s :=
  illegalOperands_of_illegalFields hl fun _ hx => .inr (.inl ⟨hop, hx⟩)

/-- The writable registers have the numbers 0 to 3 (R86). -/
theorem illegalFields_wrcfg {x : Nat} (hx : 4 ≤ x) : illegalFields 0x02 x := by
  have hclauses : 0x100 ≤ x ∨ 4 ≤ x % 256 := by omega
  rcases hclauses with h | h <;> simp [illegalFields, h]

/-- Every register has one of the selectors of R86 as its number. -/
theorem illegalFields_rdcfg {x : Nat} (hx : x ∉ selectors) : illegalFields 0x03 x := by
  rcases Nat.lt_or_ge x 0x100 with h | h
  · have hsel : x % 256 ∉ selectors := by rwa [Nat.mod_eq_of_lt h]
    simp [illegalFields, hsel]
  · simp [illegalFields, h]

/-! System and configuration. -/

/-- Settles O17: `NOP` is the response alone, and the fatal state refuses it. -/
theorem nopChangesNothing : Obligations.NopChangesNothing := fun _ =>
  ⟨fun hl => ⟨respondsOnly_of_respond hl rfl, illegalOperands_formatZ (by decide) hl⟩,
    fun hf => exec_fatal hf (by simp) (by simp)⟩

/-- Settles O19: each of the four writable registers takes the operand, and no other number is legal. -/
theorem wrcfgWritesTheRegister : Obligations.WrcfgWritesTheRegister := fun _ hl =>
  ⟨exec_wrcfg hl rfl, exec_wrcfg hl rfl, exec_wrcfg hl rfl, exec_wrcfg hl rfl,
    illegalOperands_of_illegalFields hl fun _ => illegalFields_wrcfg⟩

/-- `RDCFG` responds with the register it names (R219). -/
theorem rdcfg_respondsOnly {s : State} (hl : s.live) {q : CfgReg} {v : Block} (hv : zextWord64 (readCfg s q) = v) :
    respondsOnly (.rdcfg q) v s := hv ▸ respondsOnly_of_respond hl rfl

/-- A parameter that fits its 64-bit register is shown whole (spec/10_state.md R31). -/
theorem zextWord64_ofNat {n : Nat} (h : n < 2 ^ 64) : zextWord64 (BitVec.ofNat 64 n) = BitVec.ofNat 128 n :=
  BitVec.setWidth_ofNat_of_le_of_lt (by decide) h

theorem zextWord64_devCeilShown {p : Params} (h : p.devCeil < 2 ^ 64) :
    zextWord64 (devCeilShown p) = if p.devPresent then BitVec.ofNat 128 p.devCeil else 0#128 := by
  rw [devCeilShown]
  split_ifs
  · exact zextWord64_ofNat h
  · rfl

theorem zextWord64_devInfo (p : Params) : zextWord64 (devInfo p) = if p.devPresent then 1#128 else 0#128 := by
  rw [devInfo]
  split_ifs <;> rfl

/-- Settles O20: eleven reads, of which only those of the integer parameters need that these fit their registers. -/
theorem rdcfgReadsTheRegister : Obligations.RdcfgReadsTheRegister := by
  intro s hl
  refine ⟨rdcfg_respondsOnly hl rfl, rdcfg_respondsOnly hl rfl, rdcfg_respondsOnly hl rfl, rdcfg_respondsOnly hl rfl,
    rdcfg_respondsOnly hl rfl, rdcfg_respondsOnly hl rfl, rdcfg_respondsOnly hl rfl, ?_,
    rdcfg_respondsOnly hl (zextWord64_devInfo s.params),
    illegalOperands_of_illegalFields hl fun _ => illegalFields_rdcfg⟩
  rintro ⟨-, hclb, hlanes, hceil⟩
  exact ⟨rdcfg_respondsOnly hl (zextWord64_ofNat hclb), rdcfg_respondsOnly hl (zextWord64_ofNat hlanes),
    rdcfg_respondsOnly hl (zextWord64_devCeilShown hceil)⟩

/-! Registers. -/

/-- `RDS` responds with `S`, or raises `E_UNINIT` when it is not valid (R221). -/
theorem rds_reads {s : State} (hl : s.live) :
    (s.sV = true → respondsOnly .rds s.regS s) ∧ (s.sV = false → faultsWith .rds 0x02#8 s) := by
  rw [respondsOnly, faultsWith, exec, execRds, command_live hl]
  constructor <;> intro hv
  · rw [require_true hv]
    rfl
  · rw [require_false hv]
    rfl

/-- Settles O32: the two loads are their writes, `RDS` is a guarded read, and all three words are of format Z. -/
theorem registerMoves : Obligations.RegisterMoves := by
  intro s hl
  obtain ⟨hread, hfault⟩ := rds_reads hl
  refine ⟨?_, ?_, hread, hfault, illegalOperands_formatZ (by decide) hl, illegalOperands_formatZ (by decide) hl,
    illegalOperands_formatZ (by decide) hl⟩
  · rw [exec, execLds, command_live hl]
    rfl
  · rw [exec, execLdctr, command_live hl]
    rfl

/-! Blocks of the two buffers. -/

section
variable {s : State} {addr : State → Nat → Nat} {n : Nat}

/-- A single-block access runs when its three range tests hold: those of R223 and R224, and that of
spec/20_memory.md R55 (log 21). -/
theorem blockAccess_in_range (h : n < numBlocks s ∧ addr s (n + 1) ≤ 2 ^ 64 ∧ buffersFit s) (body : State → State) :
    blockAccess addr n body s = body s := by
  rw [← buffersInRange_iff_buffersFit] at h
  rcases blockAccess_cases addr n body s with ⟨-, hrun⟩ | ⟨hout, -⟩
  · exact hrun
  · exact absurd h hout

/-- Any of the three that fails raises `E_RANGE`. -/
theorem blockAccess_out_of_range (h : ¬(n < numBlocks s ∧ addr s (n + 1) ≤ 2 ^ 64 ∧ buffersFit s))
    (body : State → State) : blockAccess addr n body s = raiseFault .range s := by
  rw [← buffersInRange_iff_buffersFit] at h
  rcases blockAccess_cases addr n body s with ⟨hin, -⟩ | ⟨-, hfault⟩
  · exact absurd hin h
  · exact hfault

end

/-- Settles O33: in range the block is read byte by byte, and any failing range test raises `E_RANGE`. -/
theorem ldblkLoadsTheBlock : Obligations.LdblkLoadsTheBlock := by
  intro s idx hl
  constructor <;> intro h
  · refine ⟨s.mem.readBlock (inAddr s idx.toNat), ?_, fun k => byteAt_readBlock s.mem _⟩
    rw [exec, execLdblk, command_live hl, blockAccess_in_range (addr := inAddr) h]
    rfl
  · rw [faultsWith, exec, execLdblk, command_live hl, blockAccess_out_of_range (addr := inAddr) h]
    rfl

/-- `STBLK` of a block in range, with a valid `S`, writes this block (R224). -/
theorem exec_stblk_in_range {s : State} {idx : BitVec 24} (hl : s.live) (hv : s.sV = true)
    (h : idx.toNat < numBlocks s ∧ outAddr s (idx.toNat + 1) ≤ 2 ^ 64 ∧ buffersFit s) :
    exec (.stblk idx) s =
      .next (respondZero { s with mem := s.mem.writeBlock (outAddr s idx.toNat) s.regS }) := by
  rw [exec, execStblk, command_live hl, require_true hv, blockAccess_in_range h]

/-- Each byte of a block written is read back at its own address (spec/20_memory.md R52). -/
theorem read_writeBlock_byte {m : Memory} (hm : m.wf = true) {addr k : Nat} (h : addr + 16 ≤ 2 ^ 64) (v : Block)
    (hk : k < 16) : (m.writeBlock addr v).read (addr + k) = byteAt v k := by
  rw [← byteAt_readBlock _ _ hk, readBlock_writeBlock_same hm h]

/-- Settles O34: the tests in their order, then the write of the block, byte by byte. -/
theorem stblkStoresTheBlock : Obligations.StblkStoresTheBlock := by
  intro s idx hl hm
  refine ⟨fun hv => ?_, fun hv hout => ?_, fun hv hn hend hfit => ?_⟩
  · rw [faultsWith, exec, execStblk, command_live hl, require_false hv]
    rfl
  · rw [faultsWith, exec, execStblk, command_live hl, require_true hv,
      blockAccess_out_of_range (addr := outAddr) hout]
    rfl
  · have hroom : outAddr s idx.toNat + 16 ≤ 2 ^ 64 := hend
    refine ⟨_, exec_stblk_in_range hl hv ⟨hn, hend, hfit⟩, rfl, ?_⟩
    simp only [respondZero_mem]
    exact ⟨writeBlock_wf hm hroom s.regS, rfl, rfl, fun k => read_writeBlock_byte hm hroom s.regS,
      fun a => read_writeBlock_outside s.mem s.regS⟩

end Sys2Proof.Machine
end

section
/-! PROOFS. Faults and the fatal state (spec/60_exceptions.md R237, R240, R241): what a fault leaves alone, which tests
raise `E_UNINIT`, and what the fatal state still runs. -/

namespace Sys2Proof.Machine

/-! The fatal state. -/

/-- A word that decodes to a command is the word of this command. -/
theorem decode_ne_of_ne_encode {cmd : CmdWord} {i j : Instr} (h : decode cmd = .ok i) (hne : cmd ≠ encode j) :
    i ≠ j := by
  rintro rfl
  exact hne (decodedWordReencodes cmd i h).2.symm

/-- In the fatal state every word but those of `RDSTAT` and `SRESET` is refused, legal or not (R241). -/
theorem issue_fatal {cmd : CmdWord} {s : State} (hf : s.fatal = true) (hr : cmd ≠ encode .rdstat)
    (hs : cmd ≠ encode .sreset) : issue cmd s = .next (refuse s) := by
  cases hd : decode cmd with
  | ok i => rw [issue_ok hd, exec_fatal hf (decode_ne_of_ne_encode hd hr) (decode_ne_of_ne_encode hd hs)]
  | error e => rw [issue_error hd, illegalCommand, command_fatal hf]

theorem exec_sreset (s : State) : exec .sreset s = .next (respondZero (resetCore s)) := by
  rw [exec, execSreset, commandAlways_eq]

/-- Settles O12: `RDSTAT` and `SRESET` stand outside the frame that the fatal state refuses; every other word, and every
illegal one, stands in it. -/
theorem fatalStateRefuses : Obligations.FatalStateRefuses := by
  intro s hf
  refine ⟨rfl, ⟨_, exec_sreset s, rfl, rfl⟩, fun cmd w rest hp hr hs => ?_⟩
  rw [step_command hp, issue_fatal (s := present w rest s) hf hr hs]
  rfl

/-! A fault and nothing else. -/

/-- An effect on a live core is a fault, or leaves the core live (R240). -/
theorem Effect.faulted_or_live {i : Instr} {s t : State} (h : Effect i s t) (hl : s.live) :
    (∃ e, t = raiseFault e s) ∨ t.live := by
  cases h with
  | faulted e => exact .inl ⟨e, rfl⟩
  | refused hf => exact .inr hl
  | reset hi => exact .inr rfl
  | configured q hi => exact .inr ((writeCfg_fatal q _ s).trans hl)
  | partitioned c v hi hr => exact .inr ((parencRun_fatal c v s).trans hl)
  | dispatched c hi hr => exact .inr ((gpuRun_fatal c s).trans hl)
  | responded v | blockWritten hi v d | counterLoaded hi | keyLoaded hi | seeded hi hk | stepped hi r hr hp
  | expanded hi hk | inverted hi hs | blockStored idx hi hn hr => exact .inr hl

/-- The codes of the fault table (R236). -/
theorem errByte_mem_codes (e : ErrCode) :
    errByte e ∈ [0x01#8, 0x02#8, 0x03#8, 0x10#8, 0x11#8, 0x12#8, 0x13#8, 0x14#8, 0x15#8, 0x20#8, 0x21#8] := by
  cases e <;> decide

/-- Settles O13: of the effects of a command only the fault makes a live core fatal. -/
theorem faultChangesNothingElse : Obligations.FaultChangesNothingElse := by
  intro i s t hl h hf
  rcases (exec_effect h).faulted_or_live hl with ⟨e, rfl⟩ | ht
  · exact ⟨errByte e, errByte_mem_codes e, rfl⟩
  · exact absurd (hf.symm.trans ht) (by decide)

/-! Reads of what is not valid. -/

/-- What runs on `s` raises `E_UNINIT`. -/
def RaisesUninit (body : State → State) (s : State) : Prop := body s = raiseFault .uninit s

namespace RaisesUninit

variable {i : Instr} {s : State} {body : State → State}

theorem faults (h : RaisesUninit body s) (hl : s.live) (hi : exec i s = command body s) :
    faultsWith i 0x02#8 s := by
  rw [faultsWith, hi, command_live hl, h]
  rfl

/-- A test that fails raises it. -/
theorem of_invalid {valid : State → Bool} (hv : valid s = false) : RaisesUninit (require valid body) s :=
  require_false hv

/-- What stands behind a test of a valid bit raises it whether the test fails or not. -/
theorem of_require {valid : State → Bool} (h : RaisesUninit body s) : RaisesUninit (require valid body) s := by
  rcases require_cases valid body s with ⟨-, hrun⟩ | ⟨-, hfault⟩
  · exact hrun.trans h
  · exact hfault

theorem of_legal {ok : Bool} (hok : ok = true) (h : RaisesUninit body s) : RaisesUninit (legal ok body) s :=
  (legal_true hok).trans h

theorem of_firstFailure {tests : State → List (Bool × ErrCode)} (h : firstFailure (tests s) = some .uninit) :
    RaisesUninit (checkAll tests body) s := by
  rw [RaisesUninit, checkAll, h]

/-! The bodies that several commands share. -/

theorem of_expandSchedule (hk : s.keyV = false) (next : Block → Nat → Block) :
    RaisesUninit (expandSchedule next) s := of_invalid hk

theorem of_stepSchedule {r : Nat} (h1 : 1 ≤ r) (hr : r ≤ 10) (hk : rkValid s (r - 1) = false)
    (next : Block → Nat → Block) : RaisesUninit (stepSchedule next r) s :=
  of_legal (by simp [stepIndexOk, h1, hr]) (of_invalid hk)

theorem of_transformS (hv : s.sV = false) (f : State → Block → Block) : RaisesUninit (transformS f) s := of_invalid hv

theorem of_forwardRound {r : Nat} (hr : r ≤ 10) (h : s.sV = false ∨ rkValid s r = false)
    (f : Block → Block → Block) : RaisesUninit (forwardRound f r) s :=
  of_legal (decide_eq_true hr) (h.elim of_invalid fun hk => of_require (of_invalid hk))

theorem of_inverseRound {r : Nat} (hr : r ≤ 10) (h : s.sV = false ∨ s.ikV = false) (f : Block → Block → Block) :
    RaisesUninit (inverseRound f r) s :=
  of_legal (decide_eq_true hr) (h.elim of_invalid fun hk => of_require (of_invalid hk))

theorem of_wholeBlock {ok : State → Bool} {c : Bool} (h : s.sV = false ∨ ok s = false ∨ ctrOk c s = false)
    (f : State → Block → Option Block → Block) : RaisesUninit (wholeBlock ok f c) s := by
  rcases h with hv | hk | hc
  · exact of_invalid hv
  · exact of_require (of_invalid hk)
  · exact of_require (of_require (of_invalid hc))

/-- `PARENC` tests the schedule and the counter before all else (spec/45_parallel_partitioner.md R178). -/
theorem of_parencTests {c : Bool} (h : ksValid s = false ∨ ctrOk c s = false) :
    RaisesUninit (checkAll (parencTests c) body) s := by
  refine of_firstFailure ?_
  cases hk : ksValid s
  · simp [parencTests, firstFailure, hk]
  · simp [parencTests, firstFailure, h.resolve_left (by simp [hk])]

/-- `GPUDISP` tests the schedule before all else (spec/46_gpu_batch_tiler.md R197). -/
theorem of_gpuTests (hk : ksValid s = false) : RaisesUninit (checkAll gpuTests body) s :=
  of_firstFailure (by simp [gpuTests, firstFailure, hk])

end RaisesUninit

/-- One round key that is not valid makes the whole schedule not valid (spec/10_state.md R24). -/
theorem ksValid_false {s : State} {r : Nat} (hr : r ≤ 10) (hk : rkValid s r = false) : ksValid s = false := by
  rw [← Bool.not_eq_true, ksValid_iff]
  exact fun hall => absurd ((hall r hr).symm.trans hk) (by decide)

/-- Settles O15: in each command the test of the valid bit fails, and the tests before it raise the same fault. -/
theorem uninitialisedReadsFault : Obligations.UninitialisedReadsFault := by
  intro s hl
  have fault {i : Instr} {body : State → State} (h : RaisesUninit body s) (hi : exec i s = command body s) :
      faultsWith i 0x02#8 s := h.faults hl hi
  refine ⟨fun hk => ?_, fun r h1 hr hk => ?_, fun r hr hk => ?_, fun r hr hk c v => ?_, fun hk r hr c => ?_,
    fun hv r hr c idx => ?_, fun hc v => ?_⟩
  · simp only [List.forall_mem_cons]
    exact ⟨fault (.of_invalid hk) rfl, fault (.of_expandSchedule hk _) rfl, fault (.of_expandSchedule hk _) rfl,
      by simp⟩
  · exact ⟨fault (.of_stepSchedule h1 hr hk _) rfl, fault (.of_stepSchedule h1 hr hk _) rfl⟩
  · have round {i : Instr} {f : Block → Block → Block} := fault (i := i) (.of_forwardRound hr (.inr hk) f)
    simp only [List.forall_mem_cons]
    exact ⟨fault (.of_legal (decide_eq_true hr) (.of_invalid hk)) rfl, round rfl, round rfl, round rfl, by simp⟩
  · have hks := ksValid_false hr hk
    have whole {i : Instr} {f : State → Block → Option Block → Block} :=
      fault (i := i) (.of_wholeBlock (c := c) (.inr (.inl hks)) f)
    simp only [List.forall_mem_cons]
    exact ⟨fault (.of_invalid hks) rfl, whole rfl, whole rfl, fault (.of_parencTests (.inl hks)) rfl,
      fault (.of_gpuTests hks) rfl, by simp⟩
  · have unround {i : Instr} {f : Block → Block → Block} := fault (i := i) (.of_inverseRound hr (.inr hk) f)
    simp only [List.forall_mem_cons]
    exact ⟨fault (.of_legal (decide_eq_true hr) (.of_invalid hk)) rfl, unround rfl, unround rfl,
      fault (.of_wholeBlock (.inr (.inl hk)) _) rfl, by simp⟩
  · have first {i : Instr} {body : State → State} := fault (i := i) (.of_invalid (body := body) hv)
    have transform {i : Instr} {f : State → Block → Block} := fault (i := i) (.of_transformS hv f)
    have round {i : Instr} {f : Block → Block → Block} := fault (i := i) (.of_forwardRound hr (.inl hv) f)
    have unround {i : Instr} {f : Block → Block → Block} := fault (i := i) (.of_inverseRound hr (.inl hv) f)
    have whole {i : Instr} {ok : State → Bool} {f : State → Block → Option Block → Block} :=
      fault (i := i) (.of_wholeBlock (ok := ok) (c := c) (.inl hv) f)
    simp only [List.forall_mem_cons]
    exact ⟨first rfl, first rfl, first rfl, transform rfl, transform rfl, transform rfl, round rfl, transform rfl,
      transform rfl, transform rfl, round rfl, round rfl, unround rfl, unround rfl, whole rfl, whole rfl, whole rfl,
      by simp⟩
  · have hctr : ctrOk true s = false := hc
    have whole {i : Instr} {ok : State → Bool} {f : State → Block → Option Block → Block} :=
      fault (i := i) (.of_wholeBlock (ok := ok) (.inr (.inr hctr)) f)
    simp only [List.forall_mem_cons]
    exact ⟨fault (.of_require (.of_invalid hc)) rfl, whole rfl, whole rfl, whole rfl,
      fault (.of_parencTests (.inr hctr)) rfl, by simp⟩

end Sys2Proof.Machine
end

section
/-! PROOFS. Reset, the command port and the host's moves (spec/70_reset_and_hazards.md R260, spec/00_scope.md R19), and
commands that no word stands for (log 16). -/

namespace Sys2Proof.Machine

/-- Settles O11: both resets are `resetCore`, which gives the values of R42; `SRESET` has a response besides. -/
theorem resetClearsTheCore : Obligations.ResetClearsTheCore := by
  refine ⟨reset_hasResetValues, fun s => ⟨?_, fun t rest ht hp => ?_, step_idle⟩⟩
  · exact ⟨_, exec_sreset s, resetCore_hasResetValues s, rfl, rfl, rfl, rfl⟩
  · obtain rfl := Host.Outcome.next.inj ((exec_sreset s).symm.trans ht)
    exact ⟨_, step_rst hp, rfl⟩

/-- Settles O9: the word is decoded at the port and executed there. -/
theorem stepExecutesDecodedCommand : Obligations.StepExecutesDecodedCommand := by
  intro s cmd w rest i hp hd
  rw [step_command hp, issue_ok hd]

/-- Settles O10: the write of one byte of a memory in canonical form. -/
theorem hostMovesBetweenCommands : Obligations.HostMovesBetweenCommands := by
  refine fun s => ⟨step_idle, fun addr b rest hp hm => ?_⟩
  exact ⟨_, step_store hp, write_wf hm addr.isLt b, read_write_same hm _ b, fun _ ha => read_write_other s.mem ha b⟩

/-- A command whose operands fail their range test raises `E_ILLEGAL_CMD` (log 16). -/
theorem faultsWith_of_illegal {i : Instr} {ok : Bool} {body : State → State} {s : State} (hl : s.live)
    (hi : exec i s = command (legal ok body) s) (hok : ok = false) : faultsWith i 0x01#8 s := by
  rw [faultsWith, hi, command_live hl, legal_false hok]
  rfl

/-- Settles O8: the commands with ill-formed operands are those behind a range test, which is that of
`Instr.wellFormed`. -/
theorem illFormedCommandRaisesIllegalCmd : Obligations.IllFormedCommandRaisesIllegalCmd := by
  intro i s hl hi
  cases i with
  | wrcfg sel => exact faultsWith_of_illegal hl rfl hi
  | kstept r | kassist r => exact faultsWith_of_illegal hl rfl hi
  | rdrk r | rdik r | addrk r | venc r | venclast r | vdec r | vdeclast r => exact faultsWith_of_illegal hl rfl hi
  | _ => contradiction

end Sys2Proof.Machine
end

section
/-! PROOFS. The inverse transformations undo the transformations (spec/10_state.md R36, R37,
spec/43_round_primitives.md R155). -/

namespace Sys2Proof.Machine

/-! The substitution tables. -/

theorem zero_multiply (a : Byte) : multiply 0x00#8 a = 0x00#8 := by simpa using xor_multiply a a a

/-- The power 254 of 0 is 0. -/
theorem fieldInverse_zero : fieldInverse 0x00#8 = 0x00#8 := by
  rw [fieldInverse, mersennePower, zero_multiply, zero_multiply]

/-- The affine map of R36. -/
def affine (x : Byte) : Byte :=
  x ^^^ x.rotateLeft 1 ^^^ x.rotateLeft 2 ^^^ x.rotateLeft 3 ^^^ x.rotateLeft 4 ^^^ 0x63#8

/-- The table of R36, entry by entry. -/
theorem sbox_eq_affine (a : Byte) : sbox a = affine (fieldInverse a) := by
  revert a
  decide +kernel

@[simp] theorem invSbox_sbox (a : Byte) : invSbox (sbox a) = a := by
  revert a
  decide +kernel

@[simp] theorem sbox_invSbox (a : Byte) : sbox (invSbox a) = a := by
  revert a
  decide +kernel

/-- Settles O23: the inverse is the power 254, and both tables are read entry by entry. -/
theorem sboxIsAffineOfInverse : Obligations.SboxIsAffineOfInverse := by
  refine fun a => ⟨⟨fieldInverse a, fun ha => ?_, multiply_fieldInverse, ?_⟩, invSbox_sbox a, sbox_invSbox a⟩
  · rw [ha, fieldInverse_zero]
  · rw [sbox_eq_affine, affine]

/-! Substitution and row shift. -/

theorem byteAt_shiftRows (b : Block) {k : Nat} (h : k < 16) :
    byteAt (shiftRows b) k = byteAt b (4 * ((k / 4 + k % 4) % 4) + k % 4) := byteAt_blockOf _ h

theorem byteAt_invShiftRows (b : Block) {k : Nat} (h : k < 16) :
    byteAt (invShiftRows b) k = byteAt b (4 * ((k / 4 + 4 - k % 4) % 4) + k % 4) := byteAt_blockOf _ h

@[simp] theorem invSubBytes_subBytes (b : Block) : invSubBytes (subBytes b) = b :=
  block_ext fun k hk => by rw [byteAt_invSubBytes _ hk, byteAt_subBytes _ hk, invSbox_sbox]

/-- The row shifts move a byte there and back (R137, R141). -/
@[simp] theorem invShiftRows_shiftRows (b : Block) : invShiftRows (shiftRows b) = b :=
  block_ext fun k hk => by
    rw [byteAt_invShiftRows _ hk, byteAt_shiftRows _ (by omega)]
    congr 1
    omega

/-- The substitution of a byte does not depend on its place. -/
theorem shiftRows_subBytes (b : Block) : shiftRows (subBytes b) = subBytes (shiftRows b) :=
  block_ext fun k hk => by
    rw [byteAt_shiftRows _ hk, byteAt_subBytes _ (by omega), byteAt_subBytes _ hk, byteAt_shiftRows _ hk]

theorem invShiftRows_invSubBytes (b : Block) : invShiftRows (invSubBytes b) = invSubBytes (invShiftRows b) :=
  block_ext fun k hk => by
    rw [byteAt_invShiftRows _ hk, byteAt_invSubBytes _ (by omega), byteAt_invSubBytes _ hk, byteAt_invShiftRows _ hk]

/-! The column mix. Both matrices are circulant, so each row of their product is the first row, turned. -/

/-- The column mix of R138 through the multiplier. -/
abbrev multiplyRow : Byte → Byte → Byte → Byte → Nat → Byte := mixRow (multiply 0x02#8) (multiply 0x03#8)

/-- Row 0 of the inverse mix of a mixed column: the products of its four coefficients with the columns of the matrix
are 1 and three times 0. -/
theorem invMixRow_multiplyRow_zero (a0 a1 a2 a3 : Byte) :
    invMixRow (multiplyRow a0 a1 a2 a3 0) (multiplyRow a0 a1 a2 a3 1) (multiplyRow a0 a1 a2 a3 2)
      (multiplyRow a0 a1 a2 a3 3) 0 = a0 :=
  calc
    _ = multiply (multiply 0x0E#8 0x02#8 ^^^ 0x0B#8 ^^^ 0x0D#8 ^^^ multiply 0x09#8 0x03#8) a0 ^^^
        multiply (multiply 0x0E#8 0x03#8 ^^^ multiply 0x0B#8 0x02#8 ^^^ 0x0D#8 ^^^ 0x09#8) a1 ^^^
        multiply (0x0E#8 ^^^ multiply 0x0B#8 0x03#8 ^^^ multiply 0x0D#8 0x02#8 ^^^ 0x09#8) a2 ^^^
        multiply (0x0E#8 ^^^ 0x0B#8 ^^^ multiply 0x0D#8 0x03#8 ^^^ multiply 0x09#8 0x02#8) a3 := by
      simp only [invMixRow, mixRow, multiply_xor, multiply_assoc, xor_multiply]
      ac_rfl
    _ = multiply 0x01#8 a0 ^^^ multiply 0x00#8 a1 ^^^ multiply 0x00#8 a2 ^^^ multiply 0x00#8 a3 := rfl
    _ = a0 := by simp only [one_multiply, zero_multiply, BitVec.xor_zero]

/-- The next row is this row on the column turned by one place. -/
theorem invMixRow_multiplyRow_succ (a0 a1 a2 a3 : Byte) {i : Nat} (hi : i < 3) :
    invMixRow (multiplyRow a0 a1 a2 a3 0) (multiplyRow a0 a1 a2 a3 1) (multiplyRow a0 a1 a2 a3 2)
      (multiplyRow a0 a1 a2 a3 3) (i + 1) =
    invMixRow (multiplyRow a1 a2 a3 a0 0) (multiplyRow a1 a2 a3 a0 1) (multiplyRow a1 a2 a3 a0 2)
      (multiplyRow a1 a2 a3 a0 3) i := by
  have row0 : multiplyRow a0 a1 a2 a3 0 = multiplyRow a1 a2 a3 a0 3 := by simp only [mixRow]; ac_rfl
  have row1 : multiplyRow a0 a1 a2 a3 1 = multiplyRow a1 a2 a3 a0 0 := by simp only [mixRow]; ac_rfl
  have row2 : multiplyRow a0 a1 a2 a3 2 = multiplyRow a1 a2 a3 a0 1 := by simp only [mixRow]; ac_rfl
  have row3 : multiplyRow a0 a1 a2 a3 3 = multiplyRow a1 a2 a3 a0 2 := by simp only [mixRow]; ac_rfl
  rw [row0, row1, row2, row3]
  interval_cases i <;> simp only [invMixRow] <;> ac_rfl

/-- The inverse mix of a mixed column is the column (R138, R142). -/
theorem invMixRow_multiplyRow (a : Nat → Byte) {i : Nat} (hi : i < 4) :
    invMixRow (multiplyRow (a 0) (a 1) (a 2) (a 3) 0) (multiplyRow (a 0) (a 1) (a 2) (a 3) 1)
      (multiplyRow (a 0) (a 1) (a 2) (a 3) 2) (multiplyRow (a 0) (a 1) (a 2) (a 3) 3) i = a i := by
  interval_cases i
  · rw [invMixRow_multiplyRow_zero]
  · rw [invMixRow_multiplyRow_succ _ _ _ _ (by decide), invMixRow_multiplyRow_zero]
  · rw [invMixRow_multiplyRow_succ _ _ _ _ (by decide), invMixRow_multiplyRow_succ _ _ _ _ (by decide),
      invMixRow_multiplyRow_zero]
  · rw [invMixRow_multiplyRow_succ _ _ _ _ (by decide), invMixRow_multiplyRow_succ _ _ _ _ (by decide),
      invMixRow_multiplyRow_succ _ _ _ _ (by decide), invMixRow_multiplyRow_zero]

/-- Two blocks with the same four columns are equal. -/
theorem block_ext_columns {v w : Block} (h : ∀ c i, c < 4 → i < 4 → byteAt v (4 * c + i) = byteAt w (4 * c + i)) :
    v = w :=
  block_ext fun k hk => by simpa only [Nat.div_add_mod] using h (k / 4) (k % 4) (by omega) (by omega)

@[simp] theorem invMixColumns_mixColumns (b : Block) : invMixColumns (mixColumns b) = b := by
  refine block_ext_columns fun c i hc hi => ?_
  have mixed (j : Nat) (hj : j < 4) : byteAt (mixColumns b) (4 * c + j) = _ := byteAt_mapColumns multiplyRow b hc hj
  rw [invMixColumns, byteAt_mapColumns _ _ hc hi, mixed 1 (by decide), mixed 2 (by decide), mixed 3 (by decide)]
  exact (congrArg (invMixRow · _ _ _ i) (mixed 0 (by decide))).trans
    (invMixRow_multiplyRow (fun j => byteAt b (4 * c + j)) hi)

/-- The inverse column mix is linear. -/
theorem invMixColumns_xor (v w : Block) : invMixColumns (v ^^^ w) = invMixColumns v ^^^ invMixColumns w := by
  refine block_ext_columns fun c i hc hi => ?_
  simp only [invMixColumns, byteAt_xor, byteAt_mapColumns _ _ hc hi]
  interval_cases i <;> simp only [invMixRow, multiply_xor] <;> ac_rfl

/-! The commands. -/

@[simp] theorem addRoundKey_twice (b k : Block) : addRoundKey (addRoundKey b k) k = b := by
  rw [addRoundKey, addRoundKey, BitVec.xor_assoc, BitVec.xor_self, BitVec.xor_zero]

/-- Two commands the second of which undoes the first leave the block as it was. -/
theorem Transforms.undo {s : State} {i j : Instr} {f g : Block → Block} (hi : Transforms s [i] f)
    (hj : Transforms s [j] g) (h : ∀ b, g (f b) = b) : runCommands [i, j] s = .next (withS s.regS 0#128 s) := by
  have hrun := (hi.append hj).run
  rwa [h] at hrun

/-- Two commands that commute leave the same in either order. -/
theorem Transforms.commute {s : State} {i j : Instr} {f g : Block → Block} (hi : Transforms s [i] f)
    (hj : Transforms s [j] g) (h : ∀ b, f (g b) = g (f b)) :
    ∃ v, runCommands [i, j] s = .next (withS v 0#128 s) ∧ runCommands [j, i] s = .next (withS v 0#128 s) :=
  ⟨g (f s.regS), (hi.append hj).run, h s.regS ▸ (hj.append hi).run⟩

/-- Settles O41: the laws of R155 for the blocks are those of the commands. -/
theorem primitivesUndoEachOther : Obligations.PrimitivesUndoEachOther := by
  intro s hl hv
  refine ⟨?_, fun r hr hk => ?_, ?_, ?_⟩
  · simp only [List.forall_mem_cons]
    exact ⟨(Transforms.of_subb hl hv).undo (.of_isubb hl hv) invSubBytes_subBytes,
      (Transforms.of_shrow hl hv).undo (.of_ishrow hl hv) invShiftRows_shiftRows,
      (Transforms.of_mixcol hl hv).undo (.of_imixcol hl hv) invMixColumns_mixColumns, by simp⟩
  · have inject := Transforms.of_addrk hl hv hr hk
    exact inject.undo inject fun b => addRoundKey_twice b _
  · exact (Transforms.of_subb hl hv).commute (.of_shrow hl hv) fun b => (shiftRows_subBytes b).symm
  · exact (Transforms.of_isubb hl hv).commute (.of_ishrow hl hv) fun b => (invShiftRows_invSubBytes b).symm

end Sys2Proof.Machine
end

section
/-! PROOFS. Decryption undoes encryption (spec/44_block_cipher.md R161 to R169), and the standard's vector
(spec/95_test_vectors.md V1, V2). -/

namespace Sys2Proof.Machine

/-! Decryption runs the rounds of encryption backwards. Between two rounds it holds the block of encryption after its
substitution and row shift. -/

theorem invSubBytes_invShiftRows_shifted (b : Block) :
    invSubBytes (invShiftRows (shiftRows (subBytes b))) = b := by
  rw [invShiftRows_shiftRows, invSubBytes_subBytes]

/-- A middle round of decryption undoes the middle round of encryption: its key went through the inverse column mix,
which is linear (R153, spec/42_key_schedule_assisted.md R126). -/
theorem decRound_encRound (k b : Block) :
    decRound (invMixColumns k) (shiftRows (subBytes (encRound mixColumns k b))) = shiftRows (subBytes b) := by
  rw [decRound, invSubBytes_invShiftRows_shifted, encRound, addRoundKey, addRoundKey, invMixColumns_xor,
    invMixColumns_mixColumns, BitVec.xor_assoc, BitVec.xor_self, BitVec.xor_zero]

/-- The last round of decryption undoes the first injection of encryption. -/
theorem decLastRound_shifted (k b : Block) : decLastRound k (shiftRows (subBytes (addRoundKey b k))) = b := by
  rw [decLastRound, invSubBytes_invShiftRows_shifted, addRoundKey_twice]

theorem roundsDown_roundsUp {rk ik : Nat → Block} {n : Nat} (hn : n ≤ 9)
    (h : ∀ r, r ≤ 10 → ik r = inverseRoundKey rk r) (b : Block) :
    roundsDown (fun r => decRound (ik r)) n
      (shiftRows (subBytes (roundsUp (fun r => encRound mixColumns (rk r)) n b))) = shiftRows (subBytes b) := by
  induction n with
  | zero => rfl
  | succ n ih =>
    have hkey : ik (n + 1) = invMixColumns (rk (n + 1)) :=
      (h _ (by omega)).trans (inverseRoundKey_middle rk ⟨by omega, hn⟩)
    rw [roundsUp, roundsDown, hkey, decRound_encRound, ih (by omega)]

theorem xorCounter_twice (b : Block) (ctr : Option Block) : xorCounter (xorCounter b ctr) ctr = b := by
  cases ctr with
  | none => rfl
  | some x => exact addRoundKey_twice b x

/-- `DecryptBlock` with the inverse schedule undoes `EncryptBlock` (R169). -/
theorem decryptBlock_encryptBlock {rk ik : Nat → Block} (h : ∀ r, r ≤ 10 → ik r = inverseRoundKey rk r) (b : Block)
    (ctr : Option Block) : decryptBlock (encryptBlock b rk ctr) ik ctr = b := by
  have h0 : ik 0 = rk 0 := (h 0 (by omega)).trans (inverseRoundKey_outer rk (by omega))
  have h10 : ik 10 = rk 10 := (h 10 (le_refl _)).trans (inverseRoundKey_outer rk (by omega))
  rw [decryptBlock, encryptBlock, encryptWith, encLastRound, h0, h10, addRoundKey_twice,
    roundsDown_roundsUp (le_refl 9) h, decLastRound_shifted, xorCounter_twice]

/-- The invariant gives a valid inverse schedule as that of the schedule (spec/10_state.md R25, R26). -/
theorem State.Inv.ikAt_eq {s : State} (hs : s.Inv) (hi : s.ikV = true) {r : Nat} (hr : r ≤ 10) :
    ikAt s r = inverseRoundKey (rkAt s) r := by
  obtain ⟨hks, hik⟩ := hs.inverse hi
  have hkey : rkAt s r = derivedKey s r := (hs.schedule r hr ((ksValid_iff s).mp hks r hr)).2
  exact (hik r hr).trans (inverseRoundKey_congr hkey.symm)

theorem runCommands_cons {i : Instr} {s t : State} (h : exec i s = .next t) (l : List Instr) :
    runCommands (i :: l) s = runCommands l t := by
  rw [runCommands, h]

/-- Settles O46: both commands encrypt by `EncryptBlock`, which `DECV` undoes on the block that they leave. -/
theorem decryptUndoesEncrypt : Obligations.DecryptUndoesEncrypt := by
  intro s c hs hl hv hi hc
  have hrkv : s.rkv = 0x7FF#11 := beq_iff_eq.mp (hs.inverse hi).1
  obtain ⟨y, hy⟩ : ∃ y, y = encryptBlock s.regS (rkAt s) (if c then some s.regCtr else none) := ⟨_, rfl⟩
  obtain ⟨henct, hencv⟩ := encryptCommandsEncryptTheBlock s c hl hv hrkv hc y hy
  have hback : s.regS = decryptBlock y (ikAt s) (if c then some s.regCtr else none) :=
    hy ▸ (decryptBlock_encryptBlock (fun _ => hs.ikAt_eq hi) _ _).symm
  have hdecv : exec (.decv c) (withS y y s) = .next (withS s.regS s.regS s) :=
    decvDecryptsTheBlock (withS y y s) c hl hv hi hc s.regS hback
  simp only [List.forall_mem_cons]
  exact ⟨(runCommands_cons henct _).trans (runCommands_cons hdecv _),
    (runCommands_cons hencv _).trans (runCommands_cons hdecv _), by simp⟩

/-! The standard's vector. -/

/-- `EncryptBlock` on the vector V1, run in the kernel. -/
theorem encryptBlock_standard :
    blockHex 0x3925841d02dc09fbdc118597196a0b32 =
      encryptBlock (blockHex 0x3243f6a8885a308d313198a2e0370734)
        (roundKey (schedule (roundKeyBy nextRoundKeyT (blockHex 0x2b7e151628aed2a6abf7158809cf4f3c)))) none := by
  decide +kernel

/-- Settles O47: the cipher run once gives the ciphertext on both paths, and `DECV` undoes it with the schedule that
`KINV` makes. -/
theorem standardVector : Obligations.StandardVector := by
  intro s hl hk hkey hv htext
  obtain ⟨y, hy⟩ : ∃ y, y = blockHex 0x3925841d02dc09fbdc118597196a0b32 := ⟨_, rfl⟩
  have hcipher : y = encryptBlock s.regS (rkAt (expanded s)) none := by
    have hrk : rkAt (expanded s) = roundKey (schedule (roundKeyBy nextRoundKeyT s.regKey)) := rfl
    rw [hy, htext, hrk, hkey]
    exact encryptBlock_standard
  have hkexpt := exec_kexpt hl hk
  have hkexpv := (exec_kexpv_eq_exec_kexpt s).trans hkexpt
  obtain ⟨henct, hencv⟩ := encryptCommandsEncryptTheBlock (expanded s) false hl hv rfl (by simp) y hcipher
  have hkinv : exec .kinv (withS y y (expanded s)) = .next (inverted (withS y y (expanded s))) := exec_kinv hl rfl
  have hdecv := decvDecryptsTheBlock (inverted (withS y y (expanded s))) false hl hv rfl (by simp) s.regS
    (hcipher ▸ (decryptBlock_encryptBlock (fun _ => ikAt_inverted _) _ _).symm)
  rw [← hy, ← htext]
  simp only [List.forall_mem_cons]
  exact ⟨⟨⟨_, (runCommands_cons hkexpt _).trans (runCommands_cons henct _), rfl, rfl⟩,
      ⟨_, (runCommands_cons hkexpv _).trans (runCommands_cons hencv _), rfl, rfl⟩, by simp⟩,
    ⟨_, (runCommands_cons hkexpt _).trans ((runCommands_cons hencv _).trans ((runCommands_cons hkinv _).trans
      (runCommands_cons hdecv _))), rfl, rfl⟩⟩

end Sys2Proof.Machine
end
